-- ==== Sys2Proof/Word.lean ====
section
/-! DEFINITION. The word and byte types of the core (00_scope.md R7, R9). -/

namespace Sys2Proof

/-- A word: 32 bits, unsigned, bit 0 the least significant (R7, R9). -/
abbrev Word := BitVec 32

/-- A byte: 8 bits, unsigned. -/
abbrev Byte := BitVec 8

end Sys2Proof
end

