-- ==== Sys2Proof/Syntax.lean ====
section
/-! DEFINITION. The command set HCC-CMD v1 (30_encoding.md R87): one constructor per row of spec/opcode_table.json;
and the raw fields of a command word (R84), from which commands are read. -/

namespace Sys2Proof

/-- A command. All operands are implicit (R88) but HFINAL's RLEN, the one immediate (R85): every value of the 6-bit
field is legal. -/
inductive Instr where
  /-- NOP, OP = 0x0 (44_control_commands.md R141). -/
  | nop
  /-- KEYEXP, OP = 0x1 (41_cipher_commands.md R112). -/
  | keyexp
  /-- ENC, OP = 0x2 (41_cipher_commands.md R113). -/
  | enc
  /-- DEC, OP = 0x3 (41_cipher_commands.md R114). -/
  | dec
  /-- HINIT, OP = 0x4 (43_hash_commands.md R132). -/
  | hinit
  /-- HUPDATE, OP = 0x5 (43_hash_commands.md R133). -/
  | hupdate
  /-- HFINAL r, OP = 0x6, r the number of tail bytes (43_hash_commands.md R134). -/
  | hfinal (rlen : BitVec 6)
  /-- CLEAR, OP = 0x7 (44_control_commands.md R142). -/
  | clear
deriving DecidableEq, Repr

/-- The four fields of any 32-bit word written to CMD (R84), legal or not. -/
structure CmdFields where
  /-- Bits 3:0, the opcode. -/
  op : BitVec 4
  /-- Bits 7:4, reserved, must be 0. -/
  rsv0 : BitVec 4
  /-- Bits 13:8, the tail byte count; must be 0 for every opcode but HFINAL. -/
  rlen : BitVec 6
  /-- Bits 31:14, reserved, must be 0. -/
  rsv1 : BitVec 18
deriving DecidableEq, Repr

end Sys2Proof
end

