-- ==== Sys2Proof/WellFormed.lean ====
section
/-! DEFINITION. When the fields of a command word are legal (30_encoding.md R89). A value of `Instr` is well-formed by
its type (RLEN is a 6-bit field and every value of it is legal, R85); what can be ill-formed is the word written to CMD. -/

namespace Sys2Proof

/-- The opcode is one of the eight of R87: OP is 0 to 7. -/
def CmdFields.opAssigned (f : CmdFields) : Bool := f.op.toNat < 8

/-- RSV0 = 0 (R84, R89). -/
def CmdFields.rsv0Zero (f : CmdFields) : Bool := f.rsv0 == 0

/-- RSV1 = 0 (R84, R89). -/
def CmdFields.rsv1Zero (f : CmdFields) : Bool := f.rsv1 == 0

/-- RLEN = 0 unless OP = 6 (R84, R89). -/
def CmdFields.rlenAllowed (f : CmdFields) : Bool := f.op == 6 || f.rlen == 0

/-- A command word is legal "when OP is 0 to 7, RSV0 = 0, RSV1 = 0, and RLEN = 0 unless OP = 6" (R89). -/
def CmdFields.wellFormed (f : CmdFields) : Bool :=
  f.opAssigned && f.rsv0Zero && f.rsv1Zero && f.rlenAllowed

end Sys2Proof
end

