-- ==== Sys2Proof/Decode.lean ====
section
/-! DEFINITION. The decoder of command words (30_encoding.md R84 to R94), total, rejecting by name, and after it the
encoder (R97) and the opcode table as masks and patterns (spec/opcode_table.json). -/

namespace Sys2Proof

/-- Why a word is no command. Each is recorded in STATUS by the write that meets it (R90, R91). -/
inductive DecodeError where
  /-- OP in 0x8 to 0xF (R90). -/
  | badOp
  /-- OP in 0x0 to 0x7 and a nonzero reserved field, or a nonzero RLEN with OP ≠ 6 (R91). -/
  | badCmd
deriving DecidableEq, Repr

/-- The fields of a word at the bit positions of R84. -/
def fieldsOf (w : Word) : CmdFields where
  op := w.extractLsb' 0 4
  rsv0 := w.extractLsb' 4 4
  rlen := w.extractLsb' 8 6
  rsv1 := w.extractLsb' 14 18

/-- The word with the given fields (R84). -/
def CmdFields.toWord (f : CmdFields) : Word := f.rsv1 ++ f.rlen ++ f.rsv0 ++ f.op

/-- The opcode map of R87, for an assigned opcode; `none` for 0x8 to 0xF. -/
def instrOf (op : BitVec 4) (rlen : BitVec 6) : Option Instr :=
  match op.toNat with
  | 0 => some .nop
  | 1 => some .keyexp
  | 2 => some .enc
  | 3 => some .dec
  | 4 => some .hinit
  | 5 => some .hupdate
  | 6 => some (.hfinal rlen)
  | 7 => some .clear
  | _ => none

/-- Decode a command word. The checks stand in the order of R94: the opcode first, the reserved fields after it. -/
def decode (w : Word) : Except DecodeError Instr :=
  let f := fieldsOf w
  match instrOf f.op f.rlen with
  | none => .error .badOp
  | some i => if f.rsv0Zero && f.rsv1Zero && f.rlenAllowed then .ok i else .error .badCmd

/-- The instruction read from the table word `w` of `nbits` bits (bits above `nbits` are 0): one 32-bit word (R86). -/
def tableWord (nbits w : Nat) : Word := BitVec.ofNat 32 (w % 2 ^ nbits)

/-- The host's question: what the decoder reads from a row's word, `none` where it refuses. -/
def decodeTableWord (nbits w : Nat) : Option Instr := (decode (tableWord nbits w)).toOption

/-- The opcode of a command (R87). -/
def Instr.opcode : Instr → BitVec 4
  | .nop => 0x0
  | .keyexp => 0x1
  | .enc => 0x2
  | .dec => 0x3
  | .hinit => 0x4
  | .hupdate => 0x5
  | .hfinal _ => 0x6
  | .clear => 0x7

/-- The RLEN field of a command: r for HFINAL, 0 for every other (R84). -/
def Instr.rlen : Instr → BitVec 6
  | .hfinal r => r
  | .nop | .keyexp | .enc | .dec | .hinit | .hupdate | .clear => 0

/-- The fields of a command's word. -/
def Instr.fields (i : Instr) : CmdFields := { op := i.opcode, rsv0 := 0, rlen := i.rlen, rsv1 := 0 }

/-- The command word of an instruction (R84, R97). -/
def encode (i : Instr) : Word := i.fields.toWord

/-- One row of spec/opcode_table.json: the words of a command are those with `w AND mask = match`. -/
structure OpcodeRow where
  mnemonic : String
  mask : Word
  pattern : Word
deriving DecidableEq, Repr

/-- The rows of spec/opcode_table.json, in its order. -/
def opcodeTable : List OpcodeRow :=
  [ ⟨"NOP", 0xFFFFFFFF, 0x00000000⟩, ⟨"KEYEXP", 0xFFFFFFFF, 0x00000001⟩,
    ⟨"ENC", 0xFFFFFFFF, 0x00000002⟩, ⟨"DEC", 0xFFFFFFFF, 0x00000003⟩,
    ⟨"HINIT", 0xFFFFFFFF, 0x00000004⟩, ⟨"HUPDATE", 0xFFFFFFFF, 0x00000005⟩,
    ⟨"HFINAL", 0xFFFFC0FF, 0x00000006⟩, ⟨"CLEAR", 0xFFFFFFFF, 0x00000007⟩ ]

/-- The word is one of the row's. -/
def OpcodeRow.matchesWord (r : OpcodeRow) (w : Word) : Bool := w &&& r.mask == r.pattern

/-- The mnemonic of a command (R87), letter for letter as the opcode table has it. -/
def Instr.mnemonic : Instr → String
  | .nop => "NOP"
  | .keyexp => "KEYEXP"
  | .enc => "ENC"
  | .dec => "DEC"
  | .hinit => "HINIT"
  | .hupdate => "HUPDATE"
  | .hfinal _ => "HFINAL"
  | .clear => "CLEAR"

end Sys2Proof
end

