-- ==== Sys2Proof/Machine/Bits.lean ====
section
/-! DEFINITION. Rotation and the big-endian mapping between words and bytes (00_scope.md R11, 40_cipher_transforms.md
R100, 20_memory.md R68). -/

namespace Sys2Proof.Machine

open Sys2Proof

/-- `rotl(x, n)`, the circular left rotation (R100): `n` counts modulo 32, and `rotl(x, 0) = x` is stated apart. -/
def rotl (x : Word) (n : Nat) : Word :=
  let k := n % 32
  if k = 0 then x else (x <<< k) ||| (x >>> (32 - k))

/-- `byte(w, m)`, byte `m` of a word in big-endian order: `byte(w, 0) = w[31:24]` (R11). -/
def byte (w : Word) (m : Fin 4) : Byte := w.extractLsb' (8 * (3 - m.val)) 8

/-- `word(b0, b1, b2, b3) = b0 || b1 || b2 || b3` (R11). -/
def word (b0 b1 b2 b3 : Byte) : Word := b0 ++ b1 ++ b2 ++ b3

/-- The four bytes of a word, byte 0 first (R11). -/
def wordBytes (w : Word) : List Byte := [byte w 0, byte w 1, byte w 2, byte w 3]

/-- The words of a byte sequence, `Wd[k] = word(B[4k], .., B[4k+3])` (R11); up to three bytes left over are dropped. -/
def wordsOfBytes : List Byte → List Word
  | b0 :: b1 :: b2 :: b3 :: rest => word b0 b1 b2 b3 :: wordsOfBytes rest
  | _ => []

/-- `BE64(x)`, the eight bytes of a 64-bit value, `x[63:56]` first (43_hash_commands.md R129). -/
def be64 (x : BitVec 64) : List Byte := (List.range 8).map fun k => x.extractLsb' (8 * (7 - k)) 8

/-- `bit` as a one-bit field. -/
def bit (b : Bool) : BitVec 1 := BitVec.ofBool b

end Sys2Proof.Machine
end

