-- ==== Sys2Proof/Config.lean ====
section
/-! DEFINITION. What the spec leaves to the platform or the implementation: the OPEN parameters of 00_scope.md R8
and the free value of 20_memory.md R70. Each is a constant with no body, so no proof can rest on its value. -/

namespace Sys2Proof

/-- The seven OPEN latency parameters of R8. -/
inductive LatencyName where
  /-- `LAT_KEYEXP`. -/
  | keyexp
  /-- `LAT_ENC`. -/
  | enc
  /-- `LAT_DEC`. -/
  | dec
  /-- `LAT_HINIT`. -/
  | hinit
  /-- `LAT_HUPDATE`. -/
  | hupdate
  /-- `LAT_HFINAL1`: HFINAL with r < 56 (R146). -/
  | hfinal1
  /-- `LAT_HFINAL2`: HFINAL with r ≥ 56 (R146). -/
  | hfinal2
deriving DecidableEq, Repr

/-- `BASE`, the window's base address: OPEN, the platform chooses it (R8, R59; 93 I5; log entry 14). -/
opaque Config.base : Nat

/-- How many cycles beyond the first a latency parameter takes: OPEN (R8, R146; 93 I4; log entry 8).
The second argument is words of the registers the command reads: whether and on which data a latency depends is left open
(91 N25), and which words stand here is the model's choice (`operandWords`, log entry 18). -/
opaque Config.extraCycles : LatencyName → List Word → Nat

/-- A free word for each use: what the bus drives on the byte lanes outside the strobe of a narrow write
(R70, 93 I3 `any value`; log entry 7). -/
opaque Config.freeWord : Nat → Word

end Sys2Proof
end

