-- ==== Sys2Proof/Machine/State.lean ====
section
/-! DEFINITION. The state of the core (10_state.md R20), the steps of its three agents (20_memory.md R76), and the
state after reset (R48). -/

namespace Sys2Proof.Machine

open Sys2Proof

/-- The opcodes that can be in flight: "acceptance admits only 0x1 to 0x6" (44_control_commands.md R144;
log entry 6). -/
inductive FlightOp where
  | keyexp
  | enc
  | dec
  | hinit
  | hupdate
  | hfinal
deriving DecidableEq, Repr

/-- PEND's contents: "its opcode and RLEN field, captured at acceptance" (10_state.md R40). -/
structure Pending where
  op : FlightOp
  rlen : BitVec 6
deriving DecidableEq, Repr

/-- A bus transaction of the host at a byte offset of the window (20_memory.md R59). -/
inductive Transaction where
  /-- `MemRead(off, 4)` (R63). -/
  | read (off : BitVec 12)
  /-- `MemWrite(off, 4, v)` (R64). -/
  | write (off : BitVec 12) (v : Word)
  /-- A narrower write that a platform routes to the core against R70; strobe bit `m` is set when the host drives
  the byte lane `8m+7:8m` of `v` (log entry 7). -/
  | narrowWrite (off : BitVec 12) (strobe : BitVec 4) (v : Word)
deriving DecidableEq, Repr

/-- One step of one of the three agents (R76, 44_control_commands.md R148). -/
inductive Event where
  /-- A host transaction. -/
  | host (t : Transaction)
  /-- The engine's turn: `Complete()` if it is enabled (R144). -/
  | engine
  /-- A rising clock edge with `rst_n = 0`, with the transaction that falls in it and is ignored
  (70_reset_and_hazards.md R168; log entry 13). -/
  | reset (ignored : Option Transaction)
deriving DecidableEq, Repr

/-- The state. The fields from `key` to `pend` are the architectural state of 10_state.md R20; the last three are the
model's own (INVENTORY.md, State). -/
structure State where
  /-- `KEY[0..3]`, the master key (R22). -/
  key : Vector Word 4
  /-- `DIN[0..3]`, the cipher's input block (R23). -/
  din : Vector Word 4
  /-- `HIN[0..15]`, the hash block buffer (R24). -/
  hin : Vector Word 16
  /-- `DOUT[0..3]`, the cipher's output block (R25). -/
  dout : Vector Word 4
  /-- `RK[0..31]`, the round key schedule (R26). -/
  rk : Vector Word 32
  /-- `V[0..7]`, the chaining value, read as HDIG0 to HDIG7 (R27). -/
  v : Vector Word 8
  /-- `HLEN`, the bits absorbed, modulo 2^64 (R28). -/
  hlen : BitVec 64
  /-- `CTRL.IE_DONE` (R32). -/
  ieDone : Bool
  /-- `CTRL.IE_ERR` (R32). -/
  ieErr : Bool
  /-- `S.BUSY` (R34). -/
  busy : Bool
  /-- `S.DONE` (R35). -/
  done : Bool
  /-- `S.ERR` (R36). -/
  err : Bool
  /-- `S.RKV`, round keys valid (R37). -/
  rkv : Bool
  /-- `S.HACT`, hash active (R38). -/
  hact : Bool
  /-- `S.HFIN`, hash final (R39). -/
  hfin : Bool
  /-- `S.ERRCODE` (R36). -/
  errcode : BitVec 4
  /-- `PEND`, the command in flight (R40). -/
  pend : Option Pending
  /-- MODEL: the steps of the agents still to come, the next one first (log entry 1). -/
  inputs : List Event
  /-- MODEL: the word the last MemRead returned to the host, `none` before any (log entry 11). -/
  lastRead : Option Word
  /-- MODEL: how many free values have been used (log entry 7). -/
  freeCount : Nat
deriving DecidableEq, Repr

/-- There is no fault: "The core never traps, never stops and never raises a bus error" (60_exceptions.md R149), and
"No behaviour of this core is treated as `fault` or `stuck`" (93 part 1). The type has no constructor. Safe: a stop
that does not exist cannot hide a behaviour. -/
inductive Fault where
deriving DecidableEq, Repr

/-- Why the model refuses to run an instruction. -/
inductive Refusal where
  /-- An instruction with no meaning yet, by its mnemonic: raised by an arm of `exec` alone. No arm raises it, since every
  command has its meaning. Safe: a run would stop there. -/
  | notModelled (mnemonic : String)
deriving DecidableEq, Repr

/-- The state right after reset (R48): every architectural field 0, PEND none; nothing scheduled, nothing read. -/
def State.reset : State where
  key := Vector.replicate 4 0
  din := Vector.replicate 4 0
  hin := Vector.replicate 16 0
  dout := Vector.replicate 4 0
  rk := Vector.replicate 32 0
  v := Vector.replicate 8 0
  hlen := 0
  ieDone := false
  ieErr := false
  busy := false
  done := false
  err := false
  rkv := false
  hact := false
  hfin := false
  errcode := 0
  pend := none
  inputs := []
  lastRead := none
  freeCount := 0

end Sys2Proof.Machine
end

