-- ==== Sys2Proof/Machine/Flags.lean ====
section
/-! DEFINITION. The STATUS and CTRL words, the write-1-to-clear of STATUS, and the interrupt line (10_state.md R32, R33,
R42; 60_exceptions.md R155). -/

namespace Sys2Proof.Machine

open Sys2Proof

/-- The STATUS word (R33, 20_memory.md R63): `zext_32(ERRCODE || 00 || HFIN || HACT || RKV || ERR || DONE || BUSY)`. -/
def statusWord (s : State) : Word :=
  (s.errcode ++ (0 : BitVec 2) ++ bit s.hfin ++ bit s.hact ++ bit s.rkv ++ bit s.err ++ bit s.done ++ bit s.busy :
    BitVec 12).setWidth 32

/-- The CTRL word (R32, 20_memory.md R63): `zext_32(IE_ERR || IE_DONE)`. -/
def ctrlWord (s : State) : Word := (bit s.ieErr ++ bit s.ieDone : BitVec 2).setWidth 32

/-- A write to CTRL: bit 0 to IE_DONE, bit 1 to IE_ERR, the reserved bits ignored (R32, 20_memory.md R64). -/
def writeCtrl (v : Word) (s : State) : State := { s with ieDone := v.getLsbD 0, ieErr := v.getLsbD 1 }

/-- Acknowledge completion: clear DONE (R35). -/
def ackDone (s : State) : State := { s with done := false }

/-- End error handling: clear ERR and ERRCODE together (R36, 60_exceptions.md R160). -/
def ackError (s : State) : State := { s with err := false, errcode := 0 }

/-- A write to STATUS clears the W1C bits that are 1 in the written word and changes nothing else (R33, 20_memory.md
R64). -/
def writeStatus (v : Word) (s : State) : State :=
  let s := if v.getLsbD 1 then ackDone s else s
  if v.getLsbD 2 then ackError s else s

/-- The interrupt line, a level computed from the state: `(DONE AND IE_DONE) OR (ERR AND IE_ERR)` (R42, R155). -/
def irq (s : State) : Bool := (s.done && s.ieDone) || (s.err && s.ieErr)

end Sys2Proof.Machine
end

