-- ==== Sys2Proof/Machine/Ops.lean ====
section
/-! DEFINITION. The named operations the meanings share: recording an error, accepting a command, ending one, the soft
and the hard reset, and the register map with its reads and writes (60_exceptions.md R150, R151; 30_encoding.md R94;
44_control_commands.md R143, R144; 20_memory.md R60 to R67). -/

namespace Sys2Proof.Machine

open Sys2Proof

/-! ### Errors: what the core has in place of exceptions -/

/-- The causes of R150. -/
inductive ErrCode where
  /-- `ERR_BUSY`: a CMD write, or a write to KEY, DIN or HIN, while a command is in flight. -/
  | busy
  /-- `ERR_BADOP`: a reserved opcode. -/
  | badOp
  /-- `ERR_BADCMD`: a nonzero reserved field. -/
  | badCmd
  /-- `ERR_NOKEY`: ENC or DEC while RKV = 0. -/
  | noKey
  /-- `ERR_NOHASH`: HUPDATE or HFINAL while HACT = 0. -/
  | noHash
deriving DecidableEq, Repr

/-- The values of `S.ERRCODE` (R150). -/
def errCodeValue : ErrCode → BitVec 4
  | .busy => 0x1
  | .badOp => 0x2
  | .badCmd => 0x3
  | .noKey => 0x4
  | .noHash => 0x5

/-- `raise Error(code)` (R151), the one entry of error handling: ERR is set, and the code recorded if no earlier error is
pending. Nothing else changes (R152). Error handling ends with `ackError` (R160). -/
def raiseError (c : ErrCode) (s : State) : State :=
  if s.err then s else { s with err := true, errcode := errCodeValue c }

/-! ### The life of a command -/

/-- The opcode PEND holds for a command in flight (44_control_commands.md R144, 10_state.md R40). -/
def flightOpCode : FlightOp → BitVec 4
  | .keyexp => 0x1
  | .enc => 0x2
  | .dec => 0x3
  | .hinit => 0x4
  | .hupdate => 0x5
  | .hfinal => 0x6

/-- Acceptance (30_encoding.md R94): `PEND <- (op, rlen); S.BUSY <- 1; S.DONE <- 0`. -/
def accept (p : Pending) (s : State) : State := { s with pend := some p, busy := true, done := false }

/-- The checks of R94 that follow decoding, for a command that goes in flight: busy first, then the command's own state
check, then acceptance. -/
def issue (check : Option ErrCode) (p : Pending) (s : State) : State :=
  if s.busy then raiseError .busy s
  else match check with
    | some c => raiseError c s
    | none => accept p s

/-- The checks of R94 for a command that takes effect within its write: busy first, then the effect. -/
def immediately (effect : State → State) (s : State) : State :=
  if s.busy then raiseError .busy s else effect s

/-- ENC and DEC need round keys (R94): `ERR_NOKEY` while RKV = 0. -/
def keyCheck (s : State) : Option ErrCode := if s.rkv then none else some .noKey

/-- HUPDATE and HFINAL need an active hash (R94): `ERR_NOHASH` while HACT = 0. -/
def hashCheck (s : State) : Option ErrCode := if s.hact then none else some .noHash

/-- The end of every completion (44_control_commands.md R144): `S.BUSY <- 0; S.DONE <- 1; PEND <- none`. -/
def finish (s : State) : State := { s with busy := false, done := true, pend := none }

/-- Reset (70_reset_and_hazards.md R168): every piece of architectural state to its value of R48, CTRL included. What
the model keeps outside the core (the schedule, the word last read, the free values used) is not the core's to reset. -/
def hardReset (s : State) : State :=
  { State.reset with inputs := s.inputs, lastRead := s.lastRead, freeCount := s.freeCount }

/-- `Clear()` (44_control_commands.md R143): as reset, but CTRL keeps its value. -/
def clear (s : State) : State := { hardReset s with ieDone := s.ieDone, ieErr := s.ieErr }

/-! ### The register map -/

/-- The registers of the window (20_memory.md R60). -/
inductive Reg where
  | id
  | version
  | ctrl
  | status
  | cmd
  | hlenHi
  | hlenLo
  | key (i : Fin 4)
  | din (i : Fin 4)
  | dout (i : Fin 4)
  | rk (i : Fin 32)
  | hin (i : Fin 16)
  | hdig (i : Fin 8)
  /-- A reserved offset has no register (R61). -/
  | reserved
deriving DecidableEq, Repr

/-- The registers at the word indices 0 to 7, offsets 0x000 to 0x01C (R60). -/
def controlReg : Nat → Reg
  | 0 => .id
  | 1 => .version
  | 2 => .ctrl
  | 3 => .status
  | 4 => .cmd
  | 5 => .hlenHi
  | 6 => .hlenLo
  | _ => .reserved

/-- The register of a word index of the window, `off[11:2]` (R60): indices 20 to 31 (offsets 0x050 to 0x07C) and those from
88 on (0x160 to 0xFFC) are reserved. -/
def regOfIndex (n : Nat) : Reg :=
  if n < 8 then controlReg n
  else if n < 12 then .key (Fin.ofNat 4 (n - 8))
  else if n < 16 then .din (Fin.ofNat 4 (n - 12))
  else if n < 20 then .dout (Fin.ofNat 4 (n - 16))
  else if n < 32 then .reserved
  else if n < 64 then .rk (Fin.ofNat 32 (n - 32))
  else if n < 80 then .hin (Fin.ofNat 16 (n - 64))
  else if n < 88 then .hdig (Fin.ofNat 8 (n - 80))
  else .reserved

/-- The register a byte offset acts on: `off[11:2]` is decoded and `off[1:0]` ignored (R62). -/
def regAt (off : BitVec 12) : Reg := regOfIndex (off.toNat / 4)

/-- The offset of a register (R60); for `reserved`, the first reserved offset. -/
def Reg.offset : Reg → BitVec 12
  | .id => 0x000
  | .version => 0x004
  | .ctrl => 0x008
  | .status => 0x00C
  | .cmd => 0x010
  | .hlenHi => 0x014
  | .hlenLo => 0x018
  | .reserved => 0x01C
  | .key i => BitVec.ofNat 12 (0x020 + 4 * i.val)
  | .din i => BitVec.ofNat 12 (0x030 + 4 * i.val)
  | .dout i => BitVec.ofNat 12 (0x040 + 4 * i.val)
  | .rk i => BitVec.ofNat 12 (0x080 + 4 * i.val)
  | .hin i => BitVec.ofNat 12 (0x100 + 4 * i.val)
  | .hdig i => BitVec.ofNat 12 (0x140 + 4 * i.val)

/-- The result registers: HLEN_HI, HLEN_LO, DOUT, RK, HDIG (R66). -/
def Reg.isResult : Reg → Bool
  | .hlenHi | .hlenLo | .dout _ | .rk _ | .hdig _ => true
  | .id | .version | .ctrl | .status | .cmd | .key _ | .din _ | .hin _ | .reserved => false

/-- The operand registers: KEY, DIN, HIN (00_scope.md R19). -/
def Reg.isOperand : Reg → Bool
  | .key _ | .din _ | .hin _ => true
  | .id | .version | .ctrl | .status | .cmd | .hlenHi | .hlenLo | .dout _ | .rk _ | .hdig _ | .reserved => false

/-- The stored value a read of a register returns, the busy rule apart (R63). ID and VERSION are constants (10_state.md
R30, R31); CMD and reserved offsets read 0 (R41, R61). -/
def regValue (s : State) : Reg → Word
  | .id => 0x534D3433
  | .version => 0x00000001
  | .ctrl => ctrlWord s
  | .status => statusWord s
  | .cmd => 0
  | .hlenHi => s.hlen.extractLsb' 32 32
  | .hlenLo => s.hlen.extractLsb' 0 32
  | .key i => s.key[i]
  | .din i => s.din[i]
  | .dout i => s.dout[i]
  | .rk i => s.rk[i]
  | .hin i => s.hin[i]
  | .hdig i => s.v[i]
  | .reserved => 0

/-- A read of a register: result registers read 0 while a command is in flight (R66), every other register its stored
value. -/
def readReg (r : Reg) (s : State) : Word := if r.isResult && s.busy then 0 else regValue s r

/-- `MemRead(off, 4)` (R63). -/
def memRead (off : BitVec 12) (s : State) : Word := readReg (regAt off) s

/-- Store a word in an operand register; the core's registers are otherwise not written by data (R64). -/
def storeOperand (r : Reg) (v : Word) (s : State) : State :=
  match r with
  | .key i => { s with key := s.key.set i v }
  | .din i => { s with din := s.din.set i v }
  | .hin i => { s with hin := s.hin.set i v }
  | .id | .version | .ctrl | .status | .cmd | .hlenHi | .hlenLo | .dout _ | .rk _ | .hdig _ | .reserved => s

/-- A write to an operand register: dropped with `ERR_BUSY` while a command is in flight (R64, R67). -/
def writeOperand (r : Reg) (v : Word) (s : State) : State :=
  if s.busy then raiseError .busy s else storeOperand r v s

/-- A byte lane of a narrow write: the host's byte where the strobe is set, else the free byte. -/
def lane (strobe : BitVec 4) (v free : Word) (m : Fin 4) : Byte :=
  if strobe.getLsbD m then v.extractLsb' (8 * m.val) 8 else free.extractLsb' (8 * m.val) 8

/-- The bus data word of a narrow write: "the bus defines the bytes outside the strobe" (R70); they are those of `free`. -/
def mergeLanes (strobe : BitVec 4) (v free : Word) : Word :=
  lane strobe v free 3 ++ lane strobe v free 2 ++ lane strobe v free 1 ++ lane strobe v free 0

/-- The host address of a window offset, as the platform decodes it from the OPEN parameter BASE (R59, R62). -/
def hostAddress (off : BitVec 12) : Nat := Config.base + off.toNat

/-- The window offset of a host address; none outside the window, which never reaches the core (R62). -/
def windowOffset (addr : Nat) : Option (BitVec 12) :=
  if Config.base ≤ addr ∧ addr < Config.base + 4096 then some (BitVec.ofNat 12 (addr - Config.base)) else none

end Sys2Proof.Machine
end

