-- ==== Sys2Proof/Machine/Operands.lean ====
section
/-! DEFINITION. How commands read their implicit operands (30_encoding.md R88) from the registers: HIN as bytes
(10_state.md R24, 43_hash_commands.md R133, R134), RK forward and reversed (R26). -/

namespace Sys2Proof.Machine

open Sys2Proof

/-- The 64 bytes of HIN: byte `4k+m` is `byte(HIN[k], m)` (R24). -/
def hinBytes (hin : Vector Word 16) : List Byte := hin.toList.flatMap wordBytes

/-- The tail of HFINAL r: the first r bytes of HIN, `byte(HIN[i/4], i mod 4)` for i < r (R134). -/
def tailBytes (r : Nat) (hin : Vector Word 16) : List Byte := (hinBytes hin).take r

/-- The key sequence of ENC: RK in index order 0 to 31 (R26, R113). -/
def keysForward (rk : Vector Word 32) : List Word := rk.toList

/-- The key sequence of DEC: `key[i] = RK[31-i]` (R26, R114). -/
def keysReversed (rk : Vector Word 32) : List Word := rk.toList.reverse

/-- The bit length a tail of `r` bytes brings HLEN to, modulo 2^64 (R134, R137). -/
def lengthAfterTail (hlen : BitVec 64) (r : Nat) : BitVec 64 := hlen + BitVec.ofNat 64 (8 * r)

end Sys2Proof.Machine
end

