-- ==== Sys2Proof/Machine/Cipher.lean ====
section
/-! DEFINITION. The cipher: key schedule, round engine, and the commands KEYEXP, ENC and DEC, each as its CMD write
(`exec…`, 30_encoding.md R94) and its completion (`complete…`, 44_control_commands.md R144) (41_cipher_commands.md). -/

namespace Sys2Proof.Machine

open Sys2Proof

/-! ### The 4-word sliding window -/

/-- The window `K[i..i+3]` or `X[i..i+3]` (10_state.md R44): only it is live in round i (R110, 00_scope.md R15). -/
structure Window where
  x0 : Word
  x1 : Word
  x2 : Word
  x3 : Word
deriving DecidableEq, Repr

/-- A four-word register array as the first window. -/
def windowOf (x : Vector Word 4) : Window := ⟨x[0], x[1], x[2], x[3]⟩

/-- Shift one word into the window. -/
def shiftIn (w : Window) (x : Word) : Window := ⟨w.x1, w.x2, w.x3, x⟩

/-! ### Key schedule -/

/-- The word `K[i+4] = K[i] XOR T'(K[i+1] XOR K[i+2] XOR K[i+3] XOR CK[i])` of one key-schedule round (R110). -/
def keyRoundWord (w : Window) (c : Word) : Word := w.x0 ^^^ transformKey (w.x1 ^^^ w.x2 ^^^ w.x3 ^^^ c)

/-- The words `K[4], K[5], ..`, one for each round constant (R110). -/
def keyWords : Window → List Word → List Word
  | _, [] => []
  | w, c :: cs => keyRoundWord w c :: keyWords (shiftIn w (keyRoundWord w c)) cs

/-- `K[0..3] = MK[0..3] XOR FK[0..3]` (R110). -/
def keyWindow (mk : Vector Word 4) : Window :=
  ⟨mk[0] ^^^ fk[0], mk[1] ^^^ fk[1], mk[2] ^^^ fk[2], mk[3] ^^^ fk[3]⟩

/-- One round key for each round constant. -/
theorem keyWords_length (w : Window) (cs : List Word) : (keyWords w cs).length = cs.length := by
  induction cs generalizing w with
  | nil => rfl
  | cons c cs ih => simp [keyWords, ih]

/-- `KeySchedule(MK)`, the 32 round keys `rk[i] = K[i+4]` (R110). -/
def keySchedule (mk : Vector Word 4) : Vector Word 32 :=
  ⟨⟨keyWords (keyWindow mk) ck⟩, by rw [List.size_toArray, keyWords_length]; rfl⟩

/-! ### Round engine -/

/-- One round: `X[i+4] = X[i] XOR T(X[i+1] XOR X[i+2] XOR X[i+3] XOR key[i])`, always with T (R111). -/
def cipherRound (w : Window) (k : Word) : Window := shiftIn w (w.x0 ^^^ transform (w.x1 ^^^ w.x2 ^^^ w.x3 ^^^ k))

/-- `RoundEngine(X, key)`: one round per key, then the last window in reverse, `(X[35], X[34], X[33], X[32])` (R111). -/
def roundEngine (x : Vector Word 4) (keys : List Word) : Vector Word 4 :=
  let w := keys.foldl cipherRound (windowOf x)
  #v[w.x3, w.x2, w.x1, w.x0]

/-! ### Commands -/

/-- KEYEXP at its CMD write: no state check (R112). -/
def execKeyexp (s : State) : Host.Outcome State Fault Refusal := .next (issue none ⟨.keyexp, 0⟩ s)

/-- KEYEXP's completion body: all 32 words of RK at once, and RKV (R112). -/
def completeKeyexp (s : State) : State := { s with rk := keySchedule s.key, rkv := true }

/-- ENC at its CMD write: `ERR_NOKEY` while RKV = 0 (R113, R94). -/
def execEnc (s : State) : Host.Outcome State Fault Refusal := .next (issue (keyCheck s) ⟨.enc, 0⟩ s)

/-- ENC's completion body (R113). -/
def completeEnc (s : State) : State := { s with dout := roundEngine s.din (keysForward s.rk) }

/-- DEC at its CMD write: `ERR_NOKEY` while RKV = 0 (R114, R94). -/
def execDec (s : State) : Host.Outcome State Fault Refusal := .next (issue (keyCheck s) ⟨.dec, 0⟩ s)

/-- DEC's completion body: the round keys in reverse order (R114). -/
def completeDec (s : State) : State := { s with dout := roundEngine s.din (keysReversed s.rk) }

end Sys2Proof.Machine
end

