-- ==== Sys2Proof/Machine/Control.lean ====
section
/-! DEFINITION. The commands that take effect within their CMD write: NOP and CLEAR (44_control_commands.md R141, R142). -/

namespace Sys2Proof.Machine

open Sys2Proof

/-- NOP: no state changes; while busy it is refused as every CMD write is (R141). -/
def execNop (s : State) : Host.Outcome State Fault Refusal := .next (immediately (fun t => t) s)

/-- CLEAR: the soft reset of every state but CTRL; it does not cancel a command in flight (R142, R147). -/
def execClear (s : State) : Host.Outcome State Fault Refusal := .next (immediately clear s)

end Sys2Proof.Machine
end

