-- ==== Sys2Proof/Machine/HashFunctions.lean ====
section
/-! DEFINITION. The hash's constants and pure functions: mixing, permutations, message expansion, compression, padding
and the whole-message hash (42_hash_compression.md R117 to R126, 43_hash_commands.md R129, R131). The spec marks the
constants and formulas it supplies as general knowledge checked by its vectors; the model copies them (log entry 9).
A 64-byte block is the list of its bytes. -/

namespace Sys2Proof.Machine

open Sys2Proof

/-- `IV[0..7]` (R117). -/
def hashIv : Vector Word 8 :=
  #v[0x7380166f, 0x4914b2b9, 0x172442d7, 0xda8a0600, 0xa96f30bc, 0x163138aa, 0xe38dee4d, 0xb0fb0e4e]

/-- `Tconst(j)` (R118). -/
def tconst (j : Nat) : Word := if j < 16 then 0x79cc4519 else 0x7a879d8a

/-- `FF(X, Y, Z, j)`: three-way XOR for j < 16, majority from 16 on (R119). -/
def ff (x y z : Word) (j : Nat) : Word :=
  if j < 16 then x ^^^ y ^^^ z else (x &&& y) ||| (x &&& z) ||| (y &&& z)

/-- `GG(X, Y, Z, j)`: three-way XOR for j < 16, choice from 16 on (R120). -/
def gg (x y z : Word) (j : Nat) : Word :=
  if j < 16 then x ^^^ y ^^^ z else (x &&& y) ||| (~~~x &&& z)

/-- `P0(x)` (R121; where it applies, 90_conflicts.md C2). -/
def p0 (x : Word) : Word := x ^^^ rotl x 9 ^^^ rotl x 17

/-- `P1(x)` (R122). -/
def p1 (x : Word) : Word := x ^^^ rotl x 15 ^^^ rotl x 23

/-! ### Message expansion -/

/-- `W[i]` for i ≥ 16, from the words before it (R123). -/
def expandWord (w : List Word) (i : Nat) : Word :=
  p1 (w.getD (i - 16) 0 ^^^ w.getD (i - 9) 0 ^^^ rotl (w.getD (i - 3) 0) 15) ^^^ rotl (w.getD (i - 13) 0) 7 ^^^
    w.getD (i - 6) 0

/-- `W[0..67]`: the block's 16 words, then 52 more, each from those before it (R123). -/
def expand (block : List Byte) : List Word :=
  (List.range 52).foldl (fun w k => w ++ [expandWord w (16 + k)]) (wordsOfBytes block)

/-- `W'[i] = W[i] XOR W[i+4]` (R123). -/
def mixedWord (w : List Word) (i : Nat) : Word := w.getD i 0 ^^^ w.getD (i + 4) 0

/-! ### Compression -/

/-- The eight working registers A to H (10_state.md R45). -/
structure HashRegs where
  a : Word
  b : Word
  c : Word
  d : Word
  e : Word
  f : Word
  g : Word
  h : Word
deriving DecidableEq, Repr

/-- The working registers at the start of a block (R124). -/
def hashRegsOf (v : Vector Word 8) : HashRegs := ⟨v[0], v[1], v[2], v[3], v[4], v[5], v[6], v[7]⟩

/-- `SS1` of round j; the constant is rotated by `j mod 32` before the addition (R124, R125). -/
def ss1 (r : HashRegs) (j : Nat) : Word := rotl (rotl r.a 12 + r.e + rotl (tconst j) (j % 32)) 7

/-- `SS2 = SS1 XOR rotl(A, 12)` (R124). -/
def ss2 (r : HashRegs) (j : Nat) : Word := ss1 r j ^^^ rotl r.a 12

/-- `TT1` of round j (R124). -/
def tt1 (w : List Word) (r : HashRegs) (j : Nat) : Word := ff r.a r.b r.c j + r.d + ss2 r j + mixedWord w j

/-- `TT2` of round j (R124). -/
def tt2 (w : List Word) (r : HashRegs) (j : Nat) : Word := gg r.e r.f r.g j + r.h + ss1 r j + w.getD j 0

/-- Round j: the eight updates are simultaneous (R124). -/
def hashRound (w : List Word) (r : HashRegs) (j : Nat) : HashRegs where
  a := tt1 w r j
  b := r.a
  c := rotl r.b 9
  d := r.c
  e := p0 (tt2 w r j)
  f := r.e
  g := rotl r.f 19
  h := r.g

/-- The 64 rounds of a block (R124). -/
def hashRounds (w : List Word) (r : HashRegs) : HashRegs := (List.range 64).foldl (hashRound w) r

/-- The chaining update: XOR of each register into its word of V, in fixed order (R126). -/
def chain (v : Vector Word 8) (r : HashRegs) : Vector Word 8 :=
  #v[r.a ^^^ v[0], r.b ^^^ v[1], r.c ^^^ v[2], r.d ^^^ v[3], r.e ^^^ v[4], r.f ^^^ v[5], r.g ^^^ v[6], r.h ^^^ v[7]]

/-- `CF(V, B)`, the compression of one 64-byte block (R124). -/
def compress (v : Vector Word 8) (block : List Byte) : Vector Word 8 :=
  chain v (hashRounds (expand block) (hashRegsOf v))

/-! ### Padding and the whole-message hash -/

/-- `Pad(tail, Lbits)` for a tail of at most 63 bytes: one block if r < 56, else two (R129). -/
def padBlocks (tail : List Byte) (lbits : BitVec 64) : List (List Byte) :=
  if tail.length < 56 then
    [tail ++ [0x80] ++ List.replicate (55 - tail.length) 0 ++ be64 lbits]
  else
    [tail ++ [0x80] ++ List.replicate (63 - tail.length) 0, List.replicate 56 0 ++ be64 lbits]

/-- Compress blocks in order, the first first (R131, R134). -/
def compressAll (v : Vector Word 8) (blocks : List (List Byte)) : Vector Word 8 := blocks.foldl compress v

/-- Block k of a message: `M[64k .. 64k+63]` (R131). -/
def messageBlock (m : List Byte) (k : Nat) : List Byte := (m.drop (64 * k)).take 64

/-- The tail of a message: the bytes after its last complete block (R131). -/
def messageTail (m : List Byte) : List Byte := m.drop (64 * (m.length / 64))

/-- The complete blocks of a message, in order (R131). -/
def messageBlocks (m : List Byte) : List (List Byte) := (List.range (m.length / 64)).map (messageBlock m)

/-- `Hash(M)`, the source's whole-message hash (R131); the length field holds `8n` modulo 2^64 (R137). -/
def hashMessage (m : List Byte) : Vector Word 8 :=
  compressAll (compressAll hashIv (messageBlocks m)) (padBlocks (messageTail m) (BitVec.ofNat 64 (8 * m.length)))

end Sys2Proof.Machine
end

