-- ==== Sys2Proof/Machine/Hash.lean ====
section
/-! DEFINITION. The hash commands HINIT, HUPDATE and HFINAL, each as its CMD write (`exec…`, 30_encoding.md R94) and its
completion (`complete…`, 44_control_commands.md R144); and the block-feed state machine, a function of the state
(43_hash_commands.md R132 to R139). -/

namespace Sys2Proof.Machine

open Sys2Proof

/-- HINIT at its CMD write: no state check; it is legal while a hash is in progress (R132). -/
def execHinit (s : State) : Host.Outcome State Fault Refusal := .next (issue none ⟨.hinit, 0⟩ s)

/-- HINIT's completion body: V = IV, HLEN = 0, HACT = 1, HFIN = 0 (R132). -/
def completeHinit (s : State) : State := { s with v := hashIv, hlen := 0, hact := true, hfin := false }

/-- HUPDATE at its CMD write: `ERR_NOHASH` while HACT = 0 (R133, R94). -/
def execHupdate (s : State) : Host.Outcome State Fault Refusal := .next (issue (hashCheck s) ⟨.hupdate, 0⟩ s)

/-- HUPDATE's completion body: compress the 64 bytes of HIN, add 512 to HLEN modulo 2^64 (R133). -/
def completeHupdate (s : State) : State := { s with v := compress s.v (hinBytes s.hin), hlen := s.hlen + 512 }

/-- HFINAL r at its CMD write: `ERR_NOHASH` while HACT = 0; r is captured in PEND (R134, R94). -/
def execHfinal (r : BitVec 6) (s : State) : Host.Outcome State Fault Refusal := .next (issue (hashCheck s) ⟨.hfinal, r⟩ s)

/-- HFINAL's completion body: pad the first r bytes of HIN, compress the one or two blocks, HLEN to the length, HACT = 0,
HFIN = 1 (R134). -/
def completeHfinal (r : BitVec 6) (s : State) : State :=
  let lbits := lengthAfterTail s.hlen r.toNat
  { s with v := compressAll s.v (padBlocks (tailBytes r.toNat s.hin) lbits), hlen := lbits, hact := false, hfin := true }

/-- The states of the block-feed state machine (R138). -/
inductive HashPhase where
  | hIdle
  | hInit
  | hAbsorb
  | hUpdate
  | hFinalBusy
  | hDone
deriving DecidableEq, Repr

/-- Where the hash side is when no hash command is in flight (R138). -/
def restPhase (s : State) : HashPhase := if s.hact then .hAbsorb else if s.hfin then .hDone else .hIdle

/-- The hash side of the core, a function of the architectural state (R138). A cipher command in flight leaves it where it
was. -/
def hashPhase (s : State) : HashPhase :=
  match s.pend with
  | some ⟨.hinit, _⟩ => .hInit
  | some ⟨.hupdate, _⟩ => .hUpdate
  | some ⟨.hfinal, _⟩ => .hFinalBusy
  | some ⟨.keyexp, _⟩ | some ⟨.enc, _⟩ | some ⟨.dec, _⟩ | none => restPhase s

end Sys2Proof.Machine
end

