-- ==== Sys2Proof/Machine/Dispatch.lean ====
section
/-! DEFINITION. What a command does at its CMD write, command by command (30_encoding.md R94). -/

namespace Sys2Proof.Machine

open Sys2Proof

def exec (i : Instr) (s : State) : Host.Outcome State Fault Refusal :=
  match i with
  | .nop => Sys2Proof.Machine.execNop s
  | .keyexp => Sys2Proof.Machine.execKeyexp s
  | .enc => Sys2Proof.Machine.execEnc s
  | .dec => Sys2Proof.Machine.execDec s
  | .hinit => Sys2Proof.Machine.execHinit s
  | .hupdate => Sys2Proof.Machine.execHupdate s
  | .hfinal rlen => Sys2Proof.Machine.execHfinal rlen s
  | .clear => Sys2Proof.Machine.execClear s

end Sys2Proof.Machine
end

