-- ==== Sys2Proof/Machine/Engine.lean ====
section
/-! DEFINITION. The engine's step: `Complete()` (44_control_commands.md R144). -/

namespace Sys2Proof.Machine

open Sys2Proof

/-- The completion body of the command in flight (R144). -/
def completionBody (p : Pending) (s : State) : State :=
  match p.op with
  | .keyexp => completeKeyexp s
  | .enc => completeEnc s
  | .dec => completeDec s
  | .hinit => completeHinit s
  | .hupdate => completeHupdate s
  | .hfinal => completeHfinal p.rlen s

/-- `Complete()` (R144): the body of the command in PEND, then BUSY = 0, DONE = 1, PEND = none. In a state no run reaches,
BUSY = 1 with PEND = none (10_state.md R49 a), there is no body (log entry 5). -/
def complete (s : State) : State :=
  match s.pend with
  | some p => finish (completionBody p s)
  | none => finish s

/-- The engine's turn: `Complete()` "is enabled exactly when S.BUSY = 1" (R144); otherwise the engine has no step and
nothing changes (log entry 3). -/
def engineStep (s : State) : State := if s.busy then complete s else s

end Sys2Proof.Machine
end

