-- ==== Sys2Proof/Machine/Bus.lean ====
section
/-! DEFINITION. The host's transactions, and the steps of the three agents (20_memory.md R63, R64, R76; 30_encoding.md R94;
70_reset_and_hazards.md R168). -/

namespace Sys2Proof.Machine

open Sys2Proof

/-- The error a word that is no command raises (R90, R91). -/
def decodeErrCode : DecodeError → ErrCode
  | .badOp => .badOp
  | .badCmd => .badCmd

/-- `CommandWrite(v)` (R94): the busy check, then decoding, then what the command does at its write. -/
def commandWrite (v : Word) (s : State) : Host.Outcome State Fault Refusal :=
  if s.busy then .next (raiseError .busy s)
  else match decode v with
    | .error e => .next (raiseError (decodeErrCode e) s)
    | .ok i => exec i s

/-- A write to a register (R64). Writes to read-only registers and to reserved offsets have no effect and raise no error
(R61, R65). -/
def writeReg (r : Reg) (v : Word) (s : State) : Host.Outcome State Fault Refusal :=
  match r with
  | .ctrl => .next (writeCtrl v s)
  | .status => .next (writeStatus v s)
  | .cmd => commandWrite v s
  | .key i => .next (writeOperand (.key i) v s)
  | .din i => .next (writeOperand (.din i) v s)
  | .hin i => .next (writeOperand (.hin i) v s)
  | .id | .version | .hlenHi | .hlenLo | .dout _ | .rk _ | .hdig _ | .reserved => .next s

/-- `MemWrite(off, 4, v)` (R64). -/
def memWrite (off : BitVec 12) (v : Word) (s : State) : Host.Outcome State Fault Refusal := writeReg (regAt off) v s

/-- One host transaction. A read changes no state of the core (R63); the word goes to the host. A narrow write is a
full-word write of the bus data word, whose bytes outside the strobe are free (R70; log entry 7). -/
def transact (t : Transaction) (s : State) : Host.Outcome State Fault Refusal :=
  match t with
  | .read off => .next { s with lastRead := some (memRead off s) }
  | .write off v => memWrite off v s
  | .narrowWrite off strobe v =>
    memWrite off (mergeLanes strobe v (Config.freeWord s.freeCount)) { s with freeCount := s.freeCount + 1 }

/-- What the host sees of a transaction that falls in a cycle of reset: "reads return 0 and writes have no effect" (R168). -/
def ignoredTransaction (t : Option Transaction) (s : State) : State :=
  match t with
  | some (.read _) => { s with lastRead := some 0 }
  | some (.write _ _) | some (.narrowWrite _ _ _) | none => s

/-- One step of one agent (R76). -/
def takeEvent (e : Event) (s : State) : Host.Outcome State Fault Refusal :=
  match e with
  | .host t => transact t s
  | .engine => .next (engineStep s)
  | .reset ignored => .next (ignoredTransaction ignored (hardReset s))

/-- When nothing more is scheduled: a command in flight completes ("completion is guaranteed (weak fairness)", R181,
92_eei_decisions.md D25), and an idle core stays as it is (log entry 2). -/
def idleStep (s : State) : State := engineStep s

/-- The offset of CMD, to which commands are written (R60). -/
def cmdOffset : BitVec 12 := 0x010

/-- The host's write of a command word. -/
def commandEvent (w : Word) : Event := .host (.write cmdOffset w)

/-- The state whose next scheduled step is the host's write of `w` to CMD. -/
def scheduleCommand (w : Word) (s : State) : State := { s with inputs := commandEvent w :: s.inputs }

end Sys2Proof.Machine
end

