-- ==== Sys2Proof/Machine/Step.lean ====
section
/-! DEFINITION. One step of the machine, and where its next instruction comes from. The core fetches no instructions
(10_state.md R29): its instructions are the words the host writes to CMD, and the host's transactions come from outside,
held in `inputs` (log entries 1 and 4). -/

namespace Sys2Proof.Machine

open Sys2Proof

/-- One step: the next scheduled step of an agent (20_memory.md R76), or, when nothing is scheduled, the engine's. -/
def step (s : State) : Host.Outcome State Fault Refusal :=
  match s.inputs with
  | e :: rest => takeEvent e { s with inputs := rest }
  | [] => .next (idleStep s)

/-- `s` with the instruction of table word `w` as the host's next CMD write: the very next step decodes and runs it. -/
def State.withFetchWord (s : State) (nbits w : Nat) : State := scheduleCommand (tableWord nbits w) s

end Sys2Proof.Machine
end

