-- ==== Sys2Proof/Machine/Cycle.lean ====
section
/-! DEFINITION. The clocked view of the core: its ports, and what one rising clock edge does, as a short sequence of the
agents' steps (70_reset_and_hazards.md R168, R169, R182; 44_control_commands.md R146; 60_exceptions.md R158; log entry 8).
`step` does not use it: it leaves the moment of completion to the schedule, as R146 allows. -/

namespace Sys2Proof.Machine

open Sys2Proof

/-- The input ports sampled at one rising edge of `clk` (R169). -/
structure Pins where
  /-- `rst_n`, active low. -/
  rstN : Bool
  /-- `bus_sel`: a transaction to the core this cycle. -/
  busSel : Bool
  /-- `bus_write`: 1 for a write. -/
  busWrite : Bool
  /-- `bus_addr`: `off[11:2]`. -/
  busAddr : BitVec 10
  /-- `bus_wdata`. -/
  busWdata : Word
deriving DecidableEq, Repr

/-- The core with the cycles left until the command in flight completes. -/
structure TimedState where
  core : State
  countdown : Nat
deriving DecidableEq, Repr

/-- The byte offset of a transaction: `bus_addr` is `off[11:2]` (R169). -/
def pinOffset (p : Pins) : BitVec 12 := p.busAddr ++ (0 : BitVec 2)

/-- The transaction of a cycle, at most one (R169). -/
def pinTransaction (p : Pins) : Option Transaction :=
  if p.busSel then
    some (if p.busWrite then .write (pinOffset p) p.busWdata else .read (pinOffset p))
  else none

/-- Which `LAT_` parameter a command takes (R146): for HFINAL by its r. -/
def latencyName (p : Pending) : LatencyName :=
  match p.op with
  | .keyexp => .keyexp
  | .enc => .enc
  | .dec => .dec
  | .hinit => .hinit
  | .hupdate => .hupdate
  | .hfinal => if p.rlen.toNat < 56 then .hfinal1 else .hfinal2

/-- The words the latency of a command may depend on. DESIGN CHOICE (log entry 18): the spec leaves open whether a latency
depends on data, and on which (91 N25, 93 I4). The model takes the registers from which 30_encoding.md R88 has the command
read, each whole: for HFINAL all 16 words of HIN, the bytes from position r on included, which are no operands of it (R88,
R135). -/
def operandWords (p : Pending) (s : State) : List Word :=
  match p.op with
  | .keyexp => s.key.toList
  | .enc | .dec => s.din.toList ++ s.rk.toList
  | .hinit => []
  | .hupdate | .hfinal => s.hin.toList ++ s.v.toList ++ [s.hlen.extractLsb' 32 32, s.hlen.extractLsb' 0 32]

/-- `LAT_<op>`: positive, otherwise OPEN (00_scope.md R8, R146). -/
def latency (p : Pending) (s : State) : Nat := 1 + Config.extraCycles (latencyName p) (operandWords p s)

/-- The reference timing of R183: illustration only, "no rule depends on it". -/
def referenceLatency : LatencyName → Nat
  | .keyexp => 33
  | .enc => 33
  | .dec => 33
  | .hinit => 1
  | .hupdate => 65
  | .hfinal1 => 66
  | .hfinal2 => 131

/-- The command in flight completes at this edge. -/
def completionDue (c : TimedState) : Bool := c.core.busy && decide (c.countdown ≤ 1)

/-- The agents' steps of one edge: a reset, or the transaction and after it the completion that falls in the same cycle
("a transaction that falls in the completion cycle is ordered before the completion", R158). -/
def cycleEvents (p : Pins) (c : TimedState) : List Event :=
  if p.rstN then
    (pinTransaction p).toList.map Event.host ++ (if completionDue c then [Event.engine] else [])
  else [.reset (pinTransaction p)]

/-- Take steps one after the other; a stop would end the sequence. -/
def takeEvents : List Event → State → Host.Outcome State Fault Refusal
  | [], s => .next s
  | e :: rest, s =>
    match takeEvent e s with
    | .next t => takeEvents rest t
    | .fault r => .fault r
    | .refused r => .refused r

/-- The countdown after an edge: `LAT_<op>` for a command accepted at it, one less for a command that was in flight, 0 when
the core is idle (R182: accepted at cycle c, complete at cycle c + LAT). -/
def nextCountdown (lat : Pending → State → Nat) (c : TimedState) (t : State) : Nat :=
  match t.busy, c.core.busy, t.pend with
  | false, _, _ => 0
  | true, true, _ => c.countdown - 1
  | true, false, some p => lat p t
  | true, false, none => 0

/-- One rising clock edge, for given latencies (an OPEN parameter is an argument of the model, 92_eei_decisions.md). -/
def clockEdge (lat : Pending → State → Nat) (p : Pins) (c : TimedState) : Host.Outcome TimedState Fault Refusal :=
  match takeEvents (cycleEvents p c) c.core with
  | .next t => .next { core := t, countdown := nextCountdown lat c t }
  | .fault r => .fault r
  | .refused r => .refused r

/-- Clock edges one after the other. -/
def clockEdges (lat : Pending → State → Nat) : List Pins → TimedState → Host.Outcome TimedState Fault Refusal
  | [], c => .next c
  | p :: rest, c =>
    match clockEdge lat p c with
    | .next d => clockEdges lat rest d
    | .fault r => .fault r
    | .refused r => .refused r

/-- `bus_rdata`, valid in the cycle of a read (R169): the register as it stands before the edge, 0 under reset (R168). -/
def busRdata (p : Pins) (c : TimedState) : Option Word :=
  if p.busSel && !p.busWrite then some (if p.rstN then memRead (pinOffset p) c.core else 0) else none

/-- `irq`, a level that follows the state in every cycle (R155). -/
def irqPin (c : TimedState) : Bool := irq c.core

end Sys2Proof.Machine
end

