-- ==== Sys2Proof/Machine/Script.lean ====
section
/-! DEFINITION. The host-script notation of 30_encoding.md R96 to R98 as sequences of steps, the disassembler of CMD words
(R99), and the host's procedures of 41_cipher_commands.md R115 and 43_hash_commands.md R136. None is a feature of the core
(92_eei_decisions.md D33). -/

namespace Sys2Proof.Machine

open Sys2Proof

/-- A statement of a host script (R96 to R98). -/
inductive Statement where
  /-- `wr <reg>, <value>`. -/
  | wr (r : Reg) (v : Word)
  /-- `wr <offset>, <value>`. -/
  | wrAt (off : BitVec 12) (v : Word)
  /-- `rd <reg>`. -/
  | rd (r : Reg)
  /-- `rd <offset>`. -/
  | rdAt (off : BitVec 12)
  /-- `rd <reg>, =<value>`: the assertion is a test check, not a core operation. -/
  | rdIs (r : Reg) (v : Word)
  /-- `rd <offset>, =<value>`. -/
  | rdAtIs (off : BitVec 12) (v : Word)
  /-- A command pseudo-instruction (R97). -/
  | command (i : Instr)
  /-- `ldkey a,b,c,d` (R98). -/
  | ldkey (a b c d : Word)
  /-- `ldin a,b,c,d` (R98). -/
  | ldin (a b c d : Word)
  /-- `ldblk w0,..,w15`; words left out are not written (R98). -/
  | ldblk (ws : List Word)
  /-- `wait`, in the run in which STATUS is read `polls` times before the command in flight completes (R98; log entry 12). -/
  | wait (polls : Nat)
  /-- `clrst` (R98). -/
  | clrst
deriving DecidableEq, Repr

/-- A write of a register by name. -/
def writeEvent (r : Reg) (v : Word) : Event := .host (.write r.offset v)

/-- A read of a register by name. -/
def readEvent (r : Reg) : Event := .host (.read r.offset)

/-- The writes of `ldblk` (R98): one for each word given, at most 16. -/
def blockWrites (ws : List Word) : List Event :=
  (List.finRange 16).flatMap fun k => (ws[k.val]?).toList.map fun w => writeEvent (.hin k) w

/-- The steps of a statement (R96 to R98). -/
def statementEvents : Statement → List Event
  | .wr r v => [writeEvent r v]
  | .wrAt off v => [.host (.write off v)]
  | .rd r => [readEvent r]
  | .rdAt off => [.host (.read off)]
  | .rdIs r _ => [readEvent r]
  | .rdAtIs off _ => [.host (.read off)]
  | .command i => [commandEvent (encode i)]
  | .ldkey a b c d => [writeEvent (.key 0) a, writeEvent (.key 1) b, writeEvent (.key 2) c, writeEvent (.key 3) d]
  | .ldin a b c d => [writeEvent (.din 0) a, writeEvent (.din 1) b, writeEvent (.din 2) c, writeEvent (.din 3) d]
  | .ldblk ws => blockWrites ws
  | .wait polls => List.replicate polls (readEvent .status) ++ [.engine, readEvent .status]
  | .clrst => [writeEvent .status 0x00000006]

/-- The value a statement asserts of the word it reads (R96). -/
def statementAssertion : Statement → Option Word
  | .rdIs _ v | .rdAtIs _ v => some v
  | .wr _ _ | .wrAt _ _ | .rd _ | .rdAt _ | .command _ | .ldkey _ _ _ _ | .ldin _ _ _ _ | .ldblk _ | .wait _ | .clrst => none

/-- The steps of a script. -/
def scriptEvents (p : List Statement) : List Event := p.flatMap statementEvents

/-! ### Disassembler -/

/-- A hexadecimal digit. -/
def hexDigit (d : BitVec 4) : String :=
  ["0", "1", "2", "3", "4", "5", "6", "7", "8", "9", "a", "b", "c", "d", "e", "f"].getD d.toNat "0"

/-- A word as `0x` and eight hexadecimal digits (log entry 12). -/
def hexWord (w : Word) : String :=
  (List.range 8).foldl (fun t k => t ++ hexDigit (w.extractLsb' (4 * (7 - k)) 4)) "0x"

/-- The text of a command: its mnemonic, and r in decimal for HFINAL (R97, R99). -/
def instrText (i : Instr) : String :=
  match i with
  | .hfinal r => i.mnemonic ++ " " ++ toString r.toNat
  | .nop | .keyexp | .enc | .dec | .hinit | .hupdate | .clear => i.mnemonic

/-- The disassembler of CMD words (R99): the priority of R94 without the busy check. -/
def disassemble (w : Word) : String :=
  match decode w with
  | .ok i => instrText i
  | .error .badOp => ".word " ++ hexWord w ++ " ; illegal (ERR_BADOP)"
  | .error .badCmd => ".word " ++ hexWord w ++ " ; illegal (ERR_BADCMD)"

/-! ### Host procedures -/

/-- Write a key, expand it, write a block, encrypt it, each command awaited (R115, 70_reset_and_hazards.md R172). -/
def encryptScript (k p : Vector Word 4) : List Statement :=
  [.ldkey k[0] k[1] k[2] k[3], .command .keyexp, .wait 0, .ldin p[0] p[1] p[2] p[3], .command .enc, .wait 0]

/-- Write a block and decrypt it with the schedule the core holds (R115). -/
def decryptScript (x : Vector Word 4) : List Statement := [.ldin x[0] x[1] x[2] x[3], .command .dec, .wait 0]

/-- The words that carry a tail into HIN: the tail's bytes, the last word filled up with a byte of the host's choice (R135). -/
def tailWords (tail : List Byte) (fill : Byte) : List Word :=
  wordsOfBytes (tail ++ List.replicate ((4 - tail.length % 4) % 4) fill)

/-- The host's procedure for hashing a message (R136): HINIT; each complete block into HIN and HUPDATE; the tail into HIN and
HFINAL r; each command awaited. -/
def hashScript (m : List Byte) (fill : Byte) : List Statement :=
  [.command .hinit, .wait 0] ++
    (messageBlocks m).flatMap (fun b => [.ldblk (wordsOfBytes b), .command .hupdate, .wait 0]) ++
    [.ldblk (tailWords (messageTail m) fill), .command (.hfinal (BitVec.ofNat 6 (m.length % 64))), .wait 0]

end Sys2Proof.Machine
end

