-- ==== Sys2Proof/Safety.lean ====
section
/-! DEFINITION. What statements about runs are made of: the invariant of 10_state.md R49 and what makes it inductive, runs
over a schedule, reachable states, and what the host observes (20_memory.md R83). -/

namespace Sys2Proof.Machine

open Sys2Proof

/-! ### The invariant of R49 -/

/-- R49 (a): `S.BUSY = 1` if and only if `PEND ≠ none`. -/
abbrev busyIffPending (s : State) : Prop := s.busy = true ↔ s.pend ≠ none

/-- R49 (b): not (`S.HACT = 1` and `S.HFIN = 1`). -/
abbrev notActiveAndFinal (s : State) : Prop := ¬(s.hact = true ∧ s.hfin = true)

/-- R49 (c): if `S.HACT = 1` and `S.BUSY = 0`, then `HLEN mod 512 = 0`. -/
abbrev wholeBlocksWhenIdle (s : State) : Prop := s.hact = true → s.busy = false → s.hlen.toNat % 512 = 0

/-- R49 (d): `S.ERR = 0` implies `S.ERRCODE = 0`, and `S.ERR = 1` implies `S.ERRCODE` is one of 1 to 5. -/
abbrev errorCodeMatches (s : State) : Prop :=
  (s.err = false → s.errcode = 0) ∧ (s.err = true → 1 ≤ s.errcode.toNat ∧ s.errcode.toNat ≤ 5)

/-- R49 (e): if `S.BUSY = 1`, then `S.DONE = 0`. -/
abbrev busyNotDone (s : State) : Prop := s.busy = true → s.done = false

/-- R49 (f): if `S.RKV = 0`, then every `RK[i] = 0`. -/
abbrev noKeysWithoutRkv (s : State) : Prop := s.rkv = false → ∀ i : Fin 32, s.rk[i] = 0

/-- The six clauses of R49. -/
structure R49 (s : State) : Prop where
  busyIffPending : busyIffPending s
  notActiveAndFinal : notActiveAndFinal s
  wholeBlocksWhenIdle : wholeBlocksWhenIdle s
  errorCodeMatches : errorCodeMatches s
  busyNotDone : busyNotDone s
  noKeysWithoutRkv : noKeysWithoutRkv s

/-- An active hash has absorbed whole blocks, in flight or idle. Clause (c) of R49 is this while idle; alone it is not kept
by every step (a completion may end the busy time of a state with any HLEN). -/
abbrev activeWholeBlocks (s : State) : Prop := s.hact = true → s.hlen.toNat % 512 = 0

/-- What acceptance checked holds of the command in flight: HUPDATE and HFINAL have an active hash, ENC and DEC have round
keys, and only HFINAL has an RLEN (30_encoding.md R94). -/
def pendingChecked (s : State) : Prop :=
  ∀ p, s.pend = some p →
    ((p.op = .hupdate ∨ p.op = .hfinal) → s.hact = true) ∧
    ((p.op = .enc ∨ p.op = .dec) → s.rkv = true) ∧
    (p.op ≠ .hfinal → p.rlen = 0)

/-- The invariant every step keeps: the clauses of R49 with (c) made inductive, and what acceptance checked. -/
structure CoreInv (s : State) : Prop where
  busyIffPending : busyIffPending s
  notActiveAndFinal : notActiveAndFinal s
  activeWholeBlocks : activeWholeBlocks s
  errorCodeMatches : errorCodeMatches s
  busyNotDone : busyNotDone s
  noKeysWithoutRkv : noKeysWithoutRkv s
  pendingChecked : pendingChecked s

/-- RK holds a schedule derived from some key whenever RKV = 1 (92_eei_decisions.md D20: "RK always holds a derived schedule
or zeros"). -/
def scheduleDerived (s : State) : Prop := s.rkv = true → ∃ mk : Vector Word 4, s.rk = keySchedule mk

/-! ### Runs -/

/-- Run a schedule to its end, one step of the machine for each of its events. -/
def runSchedule (es : List Event) (s : State) : Host.Outcome State Fault Refusal :=
  Host.Core.run Sys2Proof.core es.length { s with inputs := es }

/-- Run a host script to its end. -/
def runScript (p : List Statement) (s : State) : Host.Outcome State Fault Refusal := runSchedule (scriptEvents p) s

/-- The states the machine can be in after some number of steps from reset, under some schedule. -/
def Reachable (s : State) : Prop :=
  ∃ (es : List Event) (n : Nat), Host.Core.run Sys2Proof.core n { State.reset with inputs := es } = .next s

/-! ### Observation -/

/-- What the host sees of one step: the word a read returns, and the interrupt level after it (R83). -/
structure Observation where
  word : Option Word
  irq : Bool
deriving DecidableEq, Repr

/-- The word returned to the host by the step about to be taken. -/
def returnedWord (s : State) : Option Word :=
  match s.inputs with
  | .host (.read off) :: _ => some (memRead off s)
  | .reset (some (.read _)) :: _ => some 0
  | _ => none

/-- What the host observes of the first `n` steps (R83). -/
def observations : Nat → State → List Observation
  | 0, _ => []
  | n + 1, s =>
    match step s with
    | .next t => ⟨returnedWord s, irq t⟩ :: observations n t
    | .fault _ => []
    | .refused _ => []

/-- What an operation that raises `code` leaves (60_exceptions.md R151, R152): ERR set, the first code kept, nothing else
changed. -/
def recorded (code : BitVec 4) (s : State) : State :=
  { s with err := true, errcode := if s.err then s.errcode else code }

/-- The cipher's registers and flags (43_hash_commands.md R140). -/
def cipherSide (s : State) : Vector Word 4 × Vector Word 4 × Vector Word 4 × Vector Word 32 × Bool :=
  (s.key, s.din, s.dout, s.rk, s.rkv)

/-- The hash's registers and flags (43_hash_commands.md R140). -/
def hashSide (s : State) : Vector Word 16 × Vector Word 8 × BitVec 64 × Bool × Bool :=
  (s.hin, s.v, s.hlen, s.hact, s.hfin)

end Sys2Proof.Machine
end

