-- ==== Sys2Proof/Certificates/Slice0/Obligations.lean ====
section
/-! DEFINITION. The statements for the provers, by the numbered rules of spec/. -/

open Sys2Proof Sys2Proof.Machine

/-! ### Command words -/

/-- R97: the command words. -/
def Obligations.CommandWordsAreThoseOfTheTable : Prop :=
  encode .nop = 0x00000000 ∧ encode .keyexp = 0x00000001 ∧ encode .enc = 0x00000002 ∧ encode .dec = 0x00000003 ∧
  encode .hinit = 0x00000004 ∧ encode .hupdate = 0x00000005 ∧ encode .clear = 0x00000007 ∧
  ∀ r : BitVec 6, encode (.hfinal r) = 0x00000006 ||| (r.setWidth 32 <<< 8)

/-- Words written out from R84 and R87 decode to their commands, and words of L2.10 to their errors. -/
def Obligations.SampleWordsDecode : Prop :=
  decode 0x00000001 = .ok .keyexp ∧ decode 0x00000003 = .ok .dec ∧ decode 0x00000005 = .ok .hupdate ∧
  decode 0x00003f06 = .ok (.hfinal 63) ∧ decode 0x00000306 = .ok (.hfinal 3) ∧ decode 0x00000007 = .ok .clear ∧
  decode 0x0000000f = .error .badOp ∧ decode 0x00000010 = .error .badCmd ∧ decode 0x00004006 = .error .badCmd ∧
  decode 0x00000107 = .error .badCmd

/-- Decode and encode agree in both directions, on every word and every command (R84, R87, R89). -/
def Obligations.DecodeAndEncodeAgree : Prop :=
  ∀ (w : Word) (i : Instr), decode w = .ok i ↔ w = encode i

/-- R89: which words are legal, and how many. -/
def Obligations.LegalWordsAreSeventyOne : Prop :=
  (∀ w : Word, (∃ i, decode w = .ok i) ↔
    w.toNat % 16 ≤ 7 ∧ w.toNat / 16 % 16 = 0 ∧ w.toNat / 2 ^ 14 = 0 ∧ (w.toNat / 256 % 64 = 0 ∨ w.toNat % 16 = 6)) ∧
  ∃ others finals : List Word, others.Nodup ∧ others.length = 7 ∧ finals.Nodup ∧ finals.length = 64 ∧
    (∀ w, w ∈ others ↔ (∃ i, decode w = .ok i) ∧ w.toNat % 16 ≠ 6) ∧
    (∀ w, w ∈ finals ↔ (∃ i, decode w = .ok i) ∧ w.toNat % 16 = 6)

/-- The opcode table's masks and patterns pick out exactly the words of each command: a word decodes if it matches a row,
and then it matches the row of its mnemonic and no other. -/
def Obligations.TableRowsPickOutTheCommands : Prop :=
  (∀ w : Word, (∃ r ∈ opcodeTable, r.matchesWord w = true) → ∃ i, decode w = .ok i) ∧
  ∀ (w : Word) (i : Instr), decode w = .ok i →
    ∀ r ∈ opcodeTable, (r.matchesWord w = true ↔ r.mnemonic = i.mnemonic)

/-! ### The CMD write -/

/-- When the host's next transaction writes to CMD a word that decodes to a command, the step is `exec` of that command on
the state with the transaction taken off the schedule; and `withFetchWord` makes such a word the next.
The schedule is the model's (log entries 1 and 4). -/
def Obligations.StepRunsTheDecodedCommand : Prop :=
  ∀ (s : State) (off : BitVec 12) (w : Word) (i : Instr) (rest : List Event), decode w = .ok i →
    (regAt off = .cmd → s.inputs = .host (.write off w) :: rest → step s = exec i { s with inputs := rest }) ∧
    step (s.withFetchWord 32 w.toNat) = exec i s

/-- R94: what a write to CMD does, check by check, for every word and every state. -/
def Obligations.CommandWriteFollowsItsChecks : Prop :=
  ∀ (s : State) (w : Word),
    let op := w.toNat % 16
    let rlen := w.toNat / 256 % 64
    if s.busy = true then memWrite 0x010 w s = .next (recorded 1 s)
    else if 8 ≤ op then memWrite 0x010 w s = .next (recorded 2 s)
    else if w.toNat / 16 % 16 ≠ 0 ∨ w.toNat / 2 ^ 14 ≠ 0 ∨ (op ≠ 6 ∧ rlen ≠ 0) then
      memWrite 0x010 w s = .next (recorded 3 s)
    else if op = 0 then memWrite 0x010 w s = .next s
    else if op = 7 then
      memWrite 0x010 w s = .next
        { State.reset with
          ieDone := s.ieDone, ieErr := s.ieErr
          inputs := s.inputs, lastRead := s.lastRead, freeCount := s.freeCount }
    else if (op = 2 ∨ op = 3) ∧ s.rkv = false then memWrite 0x010 w s = .next (recorded 4 s)
    else if (op = 5 ∨ op = 6) ∧ s.hact = false then memWrite 0x010 w s = .next (recorded 5 s)
    else ∃ p : Pending, (flightOpCode p.op).toNat = op ∧ p.rlen.toNat = rlen ∧
      memWrite 0x010 w s = .next { s with pend := some p, busy := true, done := false }

/-- R90: a reserved opcode raises ERR_BADOP whatever the other bits of the word. -/
def Obligations.ReservedOpcodesRaiseBadOp : Prop :=
  ∀ (s : State) (w : Word), s.busy = false → 8 ≤ w.toNat % 16 → memWrite 0x010 w s = .next (recorded 2 s)

/-- R91: a nonzero reserved field, or a nonzero RLEN on another opcode than HFINAL, raises ERR_BADCMD. -/
def Obligations.ReservedFieldsRaiseBadCmd : Prop :=
  ∀ (s : State) (w : Word), s.busy = false → w.toNat % 16 < 8 →
    (w.toNat / 16 % 16 ≠ 0 ∨ w.toNat / 2 ^ 14 ≠ 0 ∨ (w.toNat % 16 ≠ 6 ∧ w.toNat / 256 % 64 ≠ 0)) →
    memWrite 0x010 w s = .next (recorded 3 s)

/-- R174: while a command is in flight, every CMD write and every command is dropped with ERR_BUSY, and the command in
flight is not disturbed. -/
def Obligations.BusyRefusesEveryCommand : Prop :=
  ∀ s : State, s.busy = true →
    (∀ w : Word, memWrite 0x010 w s = .next (recorded 1 s)) ∧ (∀ i : Instr, exec i s = .next (recorded 1 s))

/-! ### The commands: acceptance or effect at the write, and the completion -/

/-- R141: NOP changes nothing when idle, is refused while busy, and every other word with OP = 0 is no NOP. -/
def Obligations.NopChangesNothing : Prop :=
  ∀ s : State,
    (s.busy = false → exec .nop s = .next s) ∧
    (s.busy = true → exec .nop s = .next (recorded 1 s)) ∧
    (∀ w : Word, s.busy = false → w.toNat % 16 = 0 → w ≠ 0 → memWrite 0x010 w s = .next (recorded 3 s))

/-- R143: CLEAR sets every register and flag to its reset value within the write, and keeps CTRL.
The last three fields are the model's own (log entries 1, 7, 11). -/
def Obligations.ClearResetsAllButCtrl : Prop :=
  ∀ s : State, s.busy = false →
    exec .clear s = .next
      { key := Vector.replicate 4 0, din := Vector.replicate 4 0, hin := Vector.replicate 16 0
        dout := Vector.replicate 4 0, rk := Vector.replicate 32 0, v := Vector.replicate 8 0, hlen := 0
        ieDone := s.ieDone, ieErr := s.ieErr
        busy := false, done := false, err := false, rkv := false, hact := false, hfin := false, errcode := 0, pend := none
        inputs := s.inputs, lastRead := s.lastRead, freeCount := s.freeCount }

/-- KEYEXP is accepted whenever the core is idle, and its completion writes all 32 round keys and RKV at once; nothing else
changes but BUSY, DONE and PEND (R94, R112, R144). -/
def Obligations.KeyexpCompletes : Prop :=
  ∀ s : State, s.busy = false →
    ∃ t : State, exec .keyexp s = .next t ∧ t = { s with pend := some ⟨.keyexp, 0⟩, busy := true, done := false } ∧
    ∀ es : List Event, step { t with inputs := .engine :: es } =
      .next { s with rk := keySchedule s.key, rkv := true, busy := false, done := true, pend := none, inputs := es }

/-- ENC is accepted when the core is idle and RKV = 1, and its completion writes DOUT from DIN with RK in forward order
(R94, R113, R144). -/
def Obligations.EncCompletes : Prop :=
  ∀ s : State, s.busy = false → s.rkv = true →
    ∃ t : State, exec .enc s = .next t ∧ t = { s with pend := some ⟨.enc, 0⟩, busy := true, done := false } ∧
    ∀ es : List Event, step { t with inputs := .engine :: es } =
      .next { s with dout := roundEngine s.din s.rk.toList, busy := false, done := true, pend := none, inputs := es }

/-- DEC is accepted when the core is idle and RKV = 1, and its completion writes DOUT from DIN with RK in reverse order
(R94, R114, R144). -/
def Obligations.DecCompletes : Prop :=
  ∀ s : State, s.busy = false → s.rkv = true →
    ∃ t : State, exec .dec s = .next t ∧ t = { s with pend := some ⟨.dec, 0⟩, busy := true, done := false } ∧
    ∀ es : List Event, step { t with inputs := .engine :: es } =
      .next { s with
        dout := roundEngine s.din s.rk.toList.reverse, busy := false, done := true, pend := none, inputs := es }

/-- HINIT is accepted whenever the core is idle, a hash in progress or not, and its completion loads IV (R94, R132, R144). -/
def Obligations.HinitCompletes : Prop :=
  ∀ s : State, s.busy = false →
    ∃ t : State, exec .hinit s = .next t ∧ t = { s with pend := some ⟨.hinit, 0⟩, busy := true, done := false } ∧
    ∀ es : List Event, step { t with inputs := .engine :: es } =
      .next { s with
        v := #v[0x7380166f, 0x4914b2b9, 0x172442d7, 0xda8a0600, 0xa96f30bc, 0x163138aa, 0xe38dee4d, 0xb0fb0e4e]
        hlen := 0, hact := true, hfin := false, busy := false, done := true, pend := none, inputs := es }

/-- HUPDATE is accepted when the core is idle and HACT = 1, and its completion absorbs the 64 bytes of HIN (R94, R133,
R144). -/
def Obligations.HupdateCompletes : Prop :=
  ∀ s : State, s.busy = false → s.hact = true →
    ∃ t : State, exec .hupdate s = .next t ∧ t = { s with pend := some ⟨.hupdate, 0⟩, busy := true, done := false } ∧
    ∀ es : List Event, step { t with inputs := .engine :: es } =
      .next { s with
        v := compress s.v (s.hin.toList.flatMap wordBytes), hlen := s.hlen + 512
        busy := false, done := true, pend := none, inputs := es }

/-- HFINAL r is accepted when the core is idle and HACT = 1, for every r, and its completion absorbs the padded tail of the
first r bytes of HIN and finishes the hash (R94, R134, R144). -/
def Obligations.HfinalCompletes : Prop :=
  ∀ (s : State) (r : BitVec 6), s.busy = false → s.hact = true →
    ∃ t : State, exec (.hfinal r) s = .next t ∧
      t = { s with pend := some ⟨.hfinal, r⟩, busy := true, done := false } ∧
    ∀ es : List Event, step { t with inputs := .engine :: es } =
      .next { s with
        v := (padBlocks ((s.hin.toList.flatMap wordBytes).take r.toNat) (s.hlen + BitVec.ofNat 64 (8 * r.toNat))).foldl
          compress s.v
        hlen := s.hlen + BitVec.ofNat 64 (8 * r.toNat), hact := false, hfin := true
        busy := false, done := true, pend := none, inputs := es }

/-- ENC and DEC are refused with ERR_NOKEY while RKV = 0 (R37, R150): nothing changes but the error record. -/
def Obligations.CipherCommandsNeedRoundKeys : Prop :=
  ∀ s : State, s.busy = false → s.rkv = false →
    exec .enc s = .next (recorded 4 s) ∧ exec .dec s = .next (recorded 4 s)

/-- HUPDATE and HFINAL r are refused with ERR_NOHASH while HACT = 0 (R38, R150): nothing changes but the error record. -/
def Obligations.HashCommandsNeedAnActiveHash : Prop :=
  ∀ (s : State) (r : BitVec 6), s.busy = false → s.hact = false →
    exec .hupdate s = .next (recorded 5 s) ∧ exec (.hfinal r) s = .next (recorded 5 s)

/-! ### Errors, STATUS and the interrupt line -/

/-- R151: the error record keeps the first code, and its codes are those of R150. -/
def Obligations.RaiseErrorKeepsTheFirstCode : Prop :=
  ∀ (c : ErrCode) (s : State),
    (s.err = true → raiseError c s = s) ∧
    (s.err = false → raiseError c s = { s with err := true, errcode := errCodeValue c }) ∧
    errCodeValue .busy = 1 ∧ errCodeValue .badOp = 2 ∧ errCodeValue .badCmd = 3 ∧ errCodeValue .noKey = 4 ∧
    errCodeValue .noHash = 5

/-- R42: the interrupt line. -/
def Obligations.IrqIsTheEnabledPendingLevel : Prop :=
  ∀ s : State, irq s = true ↔ (s.done = true ∧ s.ieDone = true) ∨ (s.err = true ∧ s.ieErr = true)

/-- Writing CTRL masks and unmasks at once, leaves the pending bits alone, and is allowed while busy (R32, R155). -/
def Obligations.CtrlWriteMasksAtOnce : Prop :=
  ∀ (s : State) (v : Word), ∃ t : State, memWrite 0x008 v s = .next t ∧
    t = { s with ieDone := v.getLsbD 0, ieErr := v.getLsbD 1 } ∧
    memRead 0x008 t = v &&& 0x00000003 ∧
    (irq t = true ↔ (s.done = true ∧ v.getLsbD 0 = true) ∨ (s.err = true ∧ v.getLsbD 1 = true))

/-! ### The window -/

/-- R63: what a read returns at every offset, and that it changes no state of the core; the word goes to the host, which the
model records in `lastRead` (log entry 11). -/
def Obligations.ReadReturnsTheWordOfItsOffset : Prop :=
  ∀ (s : State) (off : BitVec 12),
    (let a := off.toNat / 4 * 4
     memRead off s =
      if a = 0x000 then 0x534D3433
      else if a = 0x004 then 0x00000001
      else if a = 0x008 then BitVec.ofNat 32 (2 * s.ieErr.toNat + s.ieDone.toNat)
      else if a = 0x00C then
        BitVec.ofNat 32 (256 * s.errcode.toNat + 32 * s.hfin.toNat + 16 * s.hact.toNat + 8 * s.rkv.toNat +
          4 * s.err.toNat + 2 * s.done.toNat + s.busy.toNat)
      else if a = 0x010 then 0
      else if (a = 0x014 ∨ a = 0x018 ∨ (0x040 ≤ a ∧ a ≤ 0x04C) ∨ (0x080 ≤ a ∧ a ≤ 0x0FC) ∨ (0x140 ≤ a ∧ a ≤ 0x15C)) ∧
          s.busy = true then 0
      else if a = 0x014 then BitVec.ofNat 32 (s.hlen.toNat / 2 ^ 32)
      else if a = 0x018 then BitVec.ofNat 32 (s.hlen.toNat % 2 ^ 32)
      else if 0x020 ≤ a ∧ a ≤ 0x02C then s.key.toList.getD ((a - 0x020) / 4) 0
      else if 0x030 ≤ a ∧ a ≤ 0x03C then s.din.toList.getD ((a - 0x030) / 4) 0
      else if 0x040 ≤ a ∧ a ≤ 0x04C then s.dout.toList.getD ((a - 0x040) / 4) 0
      else if 0x080 ≤ a ∧ a ≤ 0x0FC then s.rk.toList.getD ((a - 0x080) / 4) 0
      else if 0x100 ≤ a ∧ a ≤ 0x13C then s.hin.toList.getD ((a - 0x100) / 4) 0
      else if 0x140 ≤ a ∧ a ≤ 0x15C then s.v.toList.getD ((a - 0x140) / 4) 0
      else 0) ∧
    ∀ es : List Event, step { s with inputs := .host (.read off) :: es } =
      .next { s with inputs := es, lastRead := some (memRead off s) }

/-- R64: what a write does at every offset; a write to CMD is `CommandWrite`. -/
def Obligations.WriteActsByItsOffset : Prop :=
  ∀ (s : State) (off : BitVec 12) (v : Word),
    let a := off.toNat / 4 * 4
    memWrite off v s =
      if a = 0x008 then .next { s with ieDone := v.getLsbD 0, ieErr := v.getLsbD 1 }
      else if a = 0x00C then
        .next { s with
          done := s.done && !v.getLsbD 1, err := s.err && !v.getLsbD 2
          errcode := if v.getLsbD 2 then 0 else s.errcode }
      else if a = 0x010 then commandWrite v s
      else if (0x020 ≤ a ∧ a ≤ 0x03C) ∨ (0x100 ≤ a ∧ a ≤ 0x13C) then
        if s.busy = true then .next (recorded 1 s)
        else if a ≤ 0x02C then .next { s with key := s.key.setIfInBounds ((a - 0x020) / 4) v }
        else if a ≤ 0x03C then .next { s with din := s.din.setIfInBounds ((a - 0x030) / 4) v }
        else .next { s with hin := s.hin.setIfInBounds ((a - 0x100) / 4) v }
      else .next s

/-- R62: the low two bits of an offset do not matter, to a read or to a write; and an address outside the window never reaches
the core, whatever BASE the platform chose (log entry 14). -/
def Obligations.OffsetsSelectRegistersByWord : Prop :=
  (∀ (s : State) (off : BitVec 12) (v : Word),
    memRead off s = memRead (off &&& 0xFFC) s ∧ memWrite off v s = memWrite (off &&& 0xFFC) v s) ∧
  (∀ off : BitVec 12, windowOffset (hostAddress off) = some off) ∧
  ∀ addr : Nat, (windowOffset addr = none ↔ addr < Config.base ∨ Config.base + 2 ^ 12 ≤ addr)

/-- Written while idle, an operand register reads back its word, and every other register of the window reads as before
(R22, R23, R24, R180). -/
def Obligations.OperandWriteReadsBackAlone : Prop :=
  ∀ (s : State) (off : BitVec 12) (v : Word), s.busy = false →
    ((0x020 ≤ off.toNat ∧ off.toNat < 0x040) ∨ (0x100 ≤ off.toNat ∧ off.toNat < 0x140)) →
    ∃ t : State, memWrite off v s = .next t ∧ memRead off t = v ∧
      ∀ other : BitVec 12, other.toNat / 4 ≠ off.toNat / 4 → memRead other t = memRead other s

/-- While a command is in flight no read at any offset depends on any result register: what the host reads is the same
whatever they hold (R47, R66). -/
def Obligations.ResultsAreHiddenWhileBusy : Prop :=
  ∀ (s : State) (off : BitVec 12) (dout : Vector Word 4) (rk : Vector Word 32) (v : Vector Word 8) (hlen : BitVec 64),
    s.busy = true → memRead off { s with dout := dout, rk := rk, v := v, hlen := hlen } = memRead off s

/-- A narrow write a platform routes to the core is a full-word write of some word that agrees with the host's on every
strobed byte lane (R70). Which word it is on the other lanes is the model's free value (log entry 7): this holds whatever
that value is. -/
def Obligations.NarrowWriteKeepsItsStrobedBytes : Prop :=
  ∀ (s : State) (off : BitVec 12) (strobe : BitVec 4) (v : Word) (es : List Event),
    ∃ w : Word, (∀ m : Fin 4, strobe.getLsbD m = true → w.extractLsb' (8 * m.val) 8 = v.extractLsb' (8 * m.val) 8) ∧
      step { s with inputs := .host (.narrowWrite off strobe v) :: es } =
        memWrite off w { s with inputs := es, freeCount := s.freeCount + 1 }

/-! ### The engine, reset and progress -/

/-- The engine has a step exactly when BUSY = 1 (R144). That an engine slot of the schedule does nothing in an idle core, and
that an exhausted schedule gives the engine its turn, are the model's choices (log entries 2 and 3). -/
def Obligations.EngineStepsExactlyWhenBusy : Prop :=
  ∀ s : State,
    (∀ es, s.inputs = .engine :: es → s.busy = false → step s = .next { s with inputs := es }) ∧
    (∀ es, s.inputs = .engine :: es → s.busy = true → step s = .next (complete { s with inputs := es })) ∧
    (s.inputs = [] → s.busy = false → step s = .next s) ∧
    (s.inputs = [] → s.busy = true → step s = .next (complete s))

/-- A completion ends the busy time, and changes no operand register, no interrupt enable and no error record, whichever
command is in flight (R144, R22, R23, R24). -/
def Obligations.CompletionKeepsOperandsAndErrors : Prop :=
  ∀ s : State, s.busy = true → ∃ t : State, t = engineStep s ∧
    t.busy = false ∧ t.done = true ∧ t.pend = none ∧ t.err = s.err ∧ t.errcode = s.errcode ∧ t.ieDone = s.ieDone ∧
    t.ieErr = s.ieErr ∧ t.key = s.key ∧ t.din = s.din ∧ t.hin = s.hin ∧ t.inputs = s.inputs ∧ t.lastRead = s.lastRead

/-- While a command stays in flight, no step changes an operand, a result register, a cipher or hash flag, or PEND: its
operands at acceptance and at completion are the same (R67, R80). -/
def Obligations.NothingMovesUnderACommand : Prop :=
  ∀ s t : State, s.busy = true → step s = .next t → t.busy = true →
    t.key = s.key ∧ t.din = s.din ∧ t.hin = s.hin ∧ t.dout = s.dout ∧ t.rk = s.rk ∧ t.v = s.v ∧ t.hlen = s.hlen ∧
    t.rkv = s.rkv ∧ t.hact = s.hact ∧ t.hfin = s.hfin ∧ t.pend = s.pend

/-- The result registers change only at a completion, a CLEAR or a reset: a host transaction leaves all of them alone, or it
is the write of CLEAR to an idle core (R145, R178). -/
def Obligations.TransactionsLeaveResultsButForClear : Prop :=
  ∀ (s t : State) (tr : Transaction) (es : List Event), s.inputs = .host tr :: es → step s = .next t →
    (t.dout = s.dout ∧ t.rk = s.rk ∧ t.v = s.v ∧ t.hlen = s.hlen) ∨
    (s.busy = false ∧ exec .clear { s with inputs := es, freeCount := t.freeCount } = .next t)

/-- The core never stops: every step of every state answers a next state (R149). -/
def Obligations.EveryStepAnswersNext : Prop :=
  ∀ s : State, ∃ t : State, step s = .next t

/-- A reset step sets every register and flag to its reset value from any state, a command in flight or not, whatever
transaction falls in its cycle: a read returns 0, and a write, full or narrow, has no effect (R168). The schedule, the word
last read and the count of free values are the model's own (log entry 13). -/
def Obligations.ResetStepGivesTheResetState : Prop :=
  ∀ (s : State) (es : List Event) (off : BitVec 12),
    step { s with inputs := .reset none :: es } =
      .next { State.reset with inputs := es, lastRead := s.lastRead, freeCount := s.freeCount } ∧
    step { s with inputs := .reset (some (.read off)) :: es } =
      .next { State.reset with inputs := es, lastRead := some 0, freeCount := s.freeCount } ∧
    ∀ (v : Word),
      step { s with inputs := .reset (some (.write off v)) :: es } =
        .next { State.reset with inputs := es, lastRead := s.lastRead, freeCount := s.freeCount } ∧
      ∀ strobe : BitVec 4, step { s with inputs := .reset (some (.narrowWrite off strobe v)) :: es } =
        .next { State.reset with inputs := es, lastRead := s.lastRead, freeCount := s.freeCount }

/-- R48: the reset values, and CLEAR's.
The fields `inputs`, `lastRead` and `freeCount` are the model's own (log entries 1, 7, 11). -/
def Obligations.ResetValuesAreZero : Prop :=
  (let s := State.reset
   (∀ i : Fin 4, s.key[i] = 0 ∧ s.din[i] = 0 ∧ s.dout[i] = 0) ∧ (∀ i : Fin 16, s.hin[i] = 0) ∧
   (∀ i : Fin 32, s.rk[i] = 0) ∧ (∀ i : Fin 8, s.v[i] = 0) ∧ s.hlen = 0 ∧ s.ieDone = false ∧ s.ieErr = false ∧
   s.busy = false ∧ s.done = false ∧ s.err = false ∧ s.rkv = false ∧ s.hact = false ∧ s.hfin = false ∧ s.errcode = 0 ∧
   s.pend = none ∧ irq s = false) ∧
  ∀ s : State, s.busy = false → exec .clear s = .next { State.reset with
    ieDone := s.ieDone, ieErr := s.ieErr, inputs := s.inputs, lastRead := s.lastRead, freeCount := s.freeCount }

/-- Every command in flight completes: from a busy state, whatever the schedule holds, the core is idle again after at most
one step more than the schedule has (R181; that the schedule ends is the model's form of fairness, log entry 2). -/
def Obligations.EveryCommandInFlightEnds : Prop :=
  ∀ s : State, s.busy = true →
    ∃ (n : Nat) (t : State), n ≤ s.inputs.length + 1 ∧ Host.Core.run Sys2Proof.core n s = .next t ∧ t.busy = false

/-! ### Invariants -/

/-- Every step of every agent keeps the invariant: the clauses of R49, with (c) in the form that is inductive, and what
acceptance checked of the command in flight. -/
def Obligations.EveryStepKeepsTheInvariant : Prop :=
  ∀ s t : State, CoreInv s → step s = .next t → CoreInv t

/-- The state after reset meets the invariant, whatever is scheduled. -/
def Obligations.ResetMeetsTheInvariant : Prop :=
  ∀ es : List Event, CoreInv { State.reset with inputs := es }

/-- R49: every state reached from reset, under any schedule of the host, the engine and further resets, meets the six
clauses. -/
def Obligations.ReachableStatesMeetR49 : Prop :=
  ∀ s : State, Reachable s → R49 s

/-- RK always holds a derived schedule or RKV = 0, kept by every step (R26, R37; D20). -/
def Obligations.RoundKeysAreAlwaysDerived : Prop :=
  (∀ s t : State, scheduleDerived s → step s = .next t → scheduleDerived t) ∧ scheduleDerived State.reset

/-- R139: from a state that meets the invariant, a step leaves the phase and the chaining value and length as they were (a
refused command among them), or it is a transition of the rule's table: an acceptance, a completion by the engine with the
effect the table gives it, the write of CLEAR to an idle core, or a reset. -/
def Obligations.HashPhasesFollowTheTable : Prop :=
  ∀ s t : State, CoreInv s → step s = .next t →
    let completes := t = engineStep { s with inputs := t.inputs }
    (hashPhase t = hashPhase s ∧ t.v = s.v ∧ t.hlen = s.hlen) ∨
    ((hashPhase s = .hIdle ∨ hashPhase s = .hAbsorb ∨ hashPhase s = .hDone) ∧ s.busy = false ∧
      hashPhase t = .hInit ∧ t.busy = true) ∨
    (hashPhase s = .hInit ∧ completes ∧
      hashPhase t = .hAbsorb ∧ t.v = hashIv ∧ t.hlen = 0 ∧ t.hact = true ∧ t.hfin = false) ∨
    (hashPhase s = .hAbsorb ∧ s.busy = false ∧ hashPhase t = .hUpdate ∧ t.busy = true) ∨
    (hashPhase s = .hUpdate ∧ completes ∧
      hashPhase t = .hAbsorb ∧ t.v = compress s.v (s.hin.toList.flatMap wordBytes) ∧ t.hlen = s.hlen + 512) ∨
    (hashPhase s = .hAbsorb ∧ s.busy = false ∧ hashPhase t = .hFinalBusy ∧ t.busy = true) ∨
    (hashPhase s = .hFinalBusy ∧ completes ∧ hashPhase t = .hDone ∧ t.hact = false ∧ t.hfin = true ∧
      ∃ r : BitVec 6, s.pend = some ⟨.hfinal, r⟩ ∧ t.hlen = s.hlen + BitVec.ofNat 64 (8 * r.toNat) ∧
        t.v = (padBlocks ((s.hin.toList.flatMap wordBytes).take r.toNat) t.hlen).foldl compress s.v) ∨
    (hashPhase t = .hIdle ∧ s.busy = false ∧
      exec .clear { s with inputs := t.inputs, freeCount := t.freeCount } = .next t) ∨
    (hashPhase t = .hIdle ∧ ∃ ig es, s.inputs = .reset ig :: es)

/-- R140: the completion of a cipher command changes no hash state and reads none, and the completion of a hash command
changes no cipher state and reads none. -/
def Obligations.CipherAndHashAreIndependent : Prop :=
  ∀ (s : State) (p : Pending), s.busy = true → s.pend = some p →
    ((p.op = .keyexp ∨ p.op = .enc ∨ p.op = .dec) →
      hashSide (engineStep s) = hashSide s ∧
      ∀ (hin : Vector Word 16) (v : Vector Word 8) (hlen : BitVec 64) (hact hfin : Bool),
        cipherSide (engineStep { s with hin := hin, v := v, hlen := hlen, hact := hact, hfin := hfin }) =
          cipherSide (engineStep s)) ∧
    ((p.op = .hinit ∨ p.op = .hupdate ∨ p.op = .hfinal) →
      cipherSide (engineStep s) = cipherSide s ∧
      ∀ (key din dout : Vector Word 4) (rk : Vector Word 32) (rkv : Bool),
        hashSide (engineStep { s with key := key, din := din, dout := dout, rk := rk, rkv := rkv }) =
          hashSide (engineStep s))

/-! ### The cipher -/

/-- R101, R102 (a): the S-box is a permutation of the bytes. -/
def Obligations.SboxIsAPermutation : Prop :=
  (∀ x y : Byte, sbox x = sbox y → x = y) ∧ ∀ y : Byte, ∃ x : Byte, sbox x = y

/-- L, L', P0 and P1 are linear over XOR (R104, R105, R121, R122), and so is every rotation. -/
def Obligations.DiffusionsAreLinear : Prop :=
  ∀ a b : Word,
    (∀ n : Nat, rotl (a ^^^ b) n = rotl a n ^^^ rotl b n) ∧
    diffuse (a ^^^ b) = diffuse a ^^^ diffuse b ∧ diffuseKey (a ^^^ b) = diffuseKey a ^^^ diffuseKey b ∧
    p0 (a ^^^ b) = p0 a ^^^ p0 b ∧ p1 (a ^^^ b) = p1 a ^^^ p1 b

/-- R110: the window form computes the growing sequence K of the rule; with the rule's example. -/
def Obligations.KeyScheduleIsTheGrowingSequence : Prop :=
  (∀ mk : Vector Word 4, ∃ k : Nat → Word,
    (∀ i : Fin 4, k i = mk[i] ^^^ fk[i]) ∧
    (∀ i, i < 32 → k (i + 4) = k i ^^^ transformKey (k (i + 1) ^^^ k (i + 2) ^^^ k (i + 3) ^^^ ck.getD i 0)) ∧
    ∀ i : Fin 32, (keySchedule mk)[i] = k (i + 4)) ∧
  (let mk : Vector Word 4 := #v[0x01234567, 0x89abcdef, 0xfedcba98, 0x76543210]
   let rk := keySchedule mk
   keyWindow mk = ⟨0xa292ffa1, 0xdf01febf, 0x99a12b0f, 0xc42410cc⟩ ∧ rk[0] = 0xf12186f9 ∧ rk[1] = 0x41662b61 ∧ rk[31] = 0x9124a012)

/-- R111: the round engine is the growing sequence X of the rule for 32 keys, its output the last four words in reverse; with
the rule's example. -/
def Obligations.RoundEngineIsTheGrowingSequence : Prop :=
  (∀ (x : Vector Word 4) (key : Vector Word 32), ∃ y : Nat → Word,
    (∀ i : Fin 4, y i = x[i]) ∧
    (∀ i : Fin 32, y (i + 4) = y i ^^^ transform (y (i + 1) ^^^ y (i + 2) ^^^ y (i + 3) ^^^ key[i])) ∧
    roundEngine x key.toList = #v[y 35, y 34, y 33, y 32]) ∧
  (let x : Vector Word 4 := #v[0x01234567, 0x89abcdef, 0xfedcba98, 0x76543210]
   (cipherRound (windowOf x) (keySchedule x)[0]).x3 = 0x27fad345 ∧
   roundEngine x (keySchedule x).toList = #v[0x681edf34, 0xd206965e, 0x86b3e94f, 0x536e4246])

/-- The round engine with the keys in reverse order undoes it, for every block and every key sequence (R115). -/
def Obligations.RoundEngineIsAnInvolution : Prop :=
  ∀ (x : Vector Word 4) (keys : List Word), roundEngine (roundEngine x keys) keys.reverse = x

/-- R115 at the level of commands: from any idle state, the host's script KEYEXP with K, ENC of P, then DEC of what DOUT then
holds, leaves DOUT = P; for every key and block.
The one run of each `wait` is the model's choice (log entry 12). -/
def Obligations.DecryptionUndoesEncryption : Prop :=
  ∀ (s : State) (k p : Vector Word 4), s.busy = false →
    ∃ t : State, runScript (encryptScript k p) s = .next t ∧ t.busy = false ∧
      t.dout = roundEngine p (keySchedule k).toList ∧
      ∃ u : State, runScript (decryptScript t.dout) t = .next u ∧ u.dout = p ∧ u.busy = false ∧ u.rk = keySchedule k

/-- R116: the key schedule is injective; already its last four words determine the key. -/
def Obligations.KeyScheduleIsInjective : Prop :=
  ∀ a b : Vector Word 4,
    (∀ i : Fin 32, 28 ≤ i.val → (keySchedule a)[i] = (keySchedule b)[i]) → a = b

/-! ### The hash -/

/-- R123: message expansion, for every 64-byte block; the all-zero block; and the rule's example. -/
def Obligations.ExpandIsTheRecurrence : Prop :=
  (∀ block : List Byte, block.length = 64 →
    (expand block).length = 68 ∧
    (∀ i, i < 16 → (expand block).getD i 0 =
      word (block.getD (4 * i) 0) (block.getD (4 * i + 1) 0) (block.getD (4 * i + 2) 0) (block.getD (4 * i + 3) 0)) ∧
    (∀ i, 16 ≤ i → i < 68 → (expand block).getD i 0 =
      p1 ((expand block).getD (i - 16) 0 ^^^ (expand block).getD (i - 9) 0 ^^^ rotl ((expand block).getD (i - 3) 0) 15) ^^^
        rotl ((expand block).getD (i - 13) 0) 7 ^^^ (expand block).getD (i - 6) 0) ∧
    ∀ i, i < 64 → mixedWord (expand block) i = (expand block).getD i 0 ^^^ (expand block).getD (i + 4) 0) ∧
  expand (List.replicate 64 0) = List.replicate 68 0 ∧
  (let w := expand ([0x61, 0x62, 0x63, 0x80] ++ List.replicate 59 0 ++ [0x18])
   w.getD 16 0 = 0x9092e200 ∧ w.getD 67 0 = 0xb99c0545 ∧ mixedWord w 0 = 0x61626380)

/-- R124: the compression function is the 64 rounds of the rule, each from the registers before it, and then the XOR with
V. -/
def Obligations.CompressionIsTheRoundRecurrence : Prop :=
  ∀ (v : Vector Word 8) (block : List Byte), ∃ r : Nat → HashRegs,
    r 0 = ⟨v[0], v[1], v[2], v[3], v[4], v[5], v[6], v[7]⟩ ∧
    (∀ j, j < 64 →
      let w := expand block
      let q := r j
      let s1 := rotl (rotl q.a 12 + q.e + rotl (tconst j) (j % 32)) 7
      let s2 := s1 ^^^ rotl q.a 12
      let t1 := ff q.a q.b q.c j + q.d + s2 + (w.getD j 0 ^^^ w.getD (j + 4) 0)
      let t2 := gg q.e q.f q.g j + q.h + s1 + w.getD j 0
      r (j + 1) = ⟨t1, q.a, rotl q.b 9, q.c, p0 t2, q.e, rotl q.f 19, q.g⟩) ∧
    compress v block =
      #v[(r 64).a ^^^ v[0], (r 64).b ^^^ v[1], (r 64).c ^^^ v[2], (r 64).d ^^^ v[3],
         (r 64).e ^^^ v[4], (r 64).f ^^^ v[5], (r 64).g ^^^ v[6], (r 64).h ^^^ v[7]]

/-- R129, byte by byte: the marker, the zeros and the big-endian length, in one block for r < 56 and in two from 56 on. -/
def Obligations.PaddingByteByByte : Prop :=
  ∀ (tail : List Byte) (lbits : BitVec 64), tail.length ≤ 63 →
    let r := tail.length
    let lengthByte := fun i : Nat => lbits.extractLsb' (8 * (63 - i)) 8
    (r < 56 → ∃ b, padBlocks tail lbits = [b] ∧ b.length = 64 ∧ ∀ i, i < 64 → b.getD i 0 =
      if i < r then tail.getD i 0 else if i = r then 0x80 else if i < 56 then 0 else lengthByte i) ∧
    (56 ≤ r → ∃ b c, padBlocks tail lbits = [b, c] ∧ b.length = 64 ∧ c.length = 64 ∧
      (∀ i, i < 64 → b.getD i 0 = if i < r then tail.getD i 0 else if i = r then 0x80 else 0) ∧
      ∀ i, i < 64 → c.getD i 0 = if i < 56 then 0 else lengthByte i)

/-- R135: the bytes of HIN from position r on do not affect HFINAL r, and HIN is not written. -/
def Obligations.HfinalIgnoresBytesBeyondTheTail : Prop :=
  ∀ (s : State) (r : BitVec 6) (hin : Vector Word 16), s.busy = true → s.pend = some ⟨.hfinal, r⟩ →
    (∀ (k : Fin 16) (m : Fin 4), 4 * k.val + m.val < r.toNat → byte hin[k] m = byte s.hin[k] m) →
    engineStep { s with hin := hin } = { engineStep s with hin := hin } ∧ (engineStep s).hin = s.hin

/-- R136: for every message of fewer than 2^61 bytes, the host's procedure HINIT, HUPDATE for each complete block and HFINAL
of the tail, run step by step on the machine from any idle state, leaves V = Hash(M) and HLEN = 8n, whatever the host left in
HIN beyond the tail.
The one run of each `wait` is the model's choice (log entry 12). -/
def Obligations.HashScriptComputesTheHash : Prop :=
  ∀ (s : State) (m : List Byte) (fill : Byte), s.busy = false → m.length < 2 ^ 61 →
    ∃ t : State, runScript (hashScript m fill) s = .next t ∧
      t.v = hashMessage m ∧ t.hlen.toNat = 8 * m.length ∧ t.hact = false ∧ t.hfin = true ∧ t.busy = false

/-- Once HINIT is in flight, the old chaining value and length can never be observed: whatever the host, the engine and reset
do next, the words read and the interrupt levels are the same for every V and HLEN (R132, R66, R83). HACT and HFIN still read
in STATUS until HINIT completes, and HIN is not cleared (R132): they are not varied here. -/
def Obligations.HinitForgetsTheOldChainingValueAndLength : Prop :=
  ∀ (s : State) (r : BitVec 6) (v : Vector Word 8) (hlen : BitVec 64) (n : Nat),
    s.busy = true → s.pend = some ⟨.hinit, r⟩ →
    observations n { s with v := v, hlen := hlen } = observations n s

/-! ### Clocked view -/

/-- R158: in the cycle of a completion the transaction comes first: a STATUS write leaves DONE = 1, a CMD write raises
ERR_BUSY; either way the command completes, from the state the transaction leaves.
The clocked layer is log entry 8. -/
def Obligations.SameCycleTransactionComesFirst : Prop :=
  ∀ (lat : Pending → State → Nat) (c : TimedState) (v : Word), c.core.busy = true → c.countdown ≤ 1 →
    (∃ d, clockEdge lat ⟨true, true, true, 0x003, v⟩ c = .next d ∧ d.core = engineStep (writeStatus v c.core) ∧
      d.core.done = true ∧ d.core.busy = false) ∧
    (∃ d, clockEdge lat ⟨true, true, true, 0x004, v⟩ c = .next d ∧ d.core = engineStep (recorded 1 c.core) ∧
      d.core.done = true ∧ d.core.busy = false ∧ d.core.err = true ∧
      d.core.errcode = if c.core.err then c.core.errcode else 1)

/-- R182: a command accepted at an edge is in flight for exactly its latency: after fewer edges without reset it is still in
flight, and after LAT edges it has completed, whatever the host does in between and whatever the latency is.
The clocked layer is log entry 8. -/
def Obligations.CompletionComesAtItsLatency : Prop :=
  ∀ (lat : Pending → State → Nat) (pin : Pins) (c d : TimedState) (p : Pending) (pins : List Pins),
    (∀ q s, 1 ≤ lat q s) → c.core.busy = false → clockEdge lat pin c = .next d → d.core.pend = some p →
    d.core.busy = true → (∀ q ∈ pins, q.rstN = true) →
    (pins.length < lat p d.core → ∃ e, clockEdges lat pins d = .next e ∧ e.core.busy = true) ∧
    (pins.length = lat p d.core → ∃ e, clockEdges lat pins d = .next e ∧ e.core.busy = false ∧ e.core.done = true)
end

