-- ==== Sys2Proof/Laws/Bits.lean ====
section
/-! SUPPORT. The word and byte mappings undo each other, and the lengths of byte sequences. -/

namespace Sys2Proof.Machine

open Sys2Proof

/-- A word is made of its four bytes (00_scope.md R11). -/
@[simp] theorem word_of_bytes (w : Word) : word (byte w 0) (byte w 1) (byte w 2) (byte w 3) = w := by
  apply BitVec.eq_of_getLsbD_eq
  intro i hi
  simp only [word, byte, BitVec.getLsbD_append, BitVec.getLsbD_extractLsb']
  interval_cases i <;> simp

/-- The bytes of a word are those it was made of (R11). -/
theorem bytes_of_word (b0 b1 b2 b3 : Byte) :
    byte (word b0 b1 b2 b3) 0 = b0 ∧ byte (word b0 b1 b2 b3) 1 = b1 ∧ byte (word b0 b1 b2 b3) 2 = b2 ∧
      byte (word b0 b1 b2 b3) 3 = b3 := by
  refine ⟨?_, ?_, ?_, ?_⟩ <;>
  · apply BitVec.eq_of_getLsbD_eq
    intro i hi
    simp only [word, byte, BitVec.getLsbD_append, BitVec.getLsbD_extractLsb']
    interval_cases i <;> simp

@[simp] theorem wordBytes_length (w : Word) : (wordBytes w).length = 4 := rfl

/-- Words written out as bytes are read back as the same words. -/
theorem wordsOfBytes_flatMap (ws : List Word) : wordsOfBytes (ws.flatMap wordBytes) = ws := by
  induction ws with
  | nil => rfl
  | cons w ws ih => simp [wordBytes, wordsOfBytes, ih]

/-- Words written out as bytes: four bytes each. -/
theorem flatMap_wordBytes_length (ws : List Word) : (ws.flatMap wordBytes).length = 4 * ws.length := by
  induction ws with
  | nil => rfl
  | cons w ws ih => rw [List.flatMap_cons, List.length_append, ih, wordBytes_length, List.length_cons]; omega

/-- HIN is 64 bytes (10_state.md R24). -/
@[simp] theorem hinBytes_length (hin : Vector Word 16) : (hinBytes hin).length = 64 := by
  simp [hinBytes]

/-- A tail is r bytes (43_hash_commands.md R134). -/
@[simp] theorem tailBytes_length (r : Nat) (hin : Vector Word 16) : (tailBytes r hin).length = min r 64 := by
  simp [tailBytes]

@[simp] theorem be64_length (x : BitVec 64) : (be64 x).length = 8 := rfl

end Sys2Proof.Machine
end

