-- ==== Sys2Proof/Laws/Hash.lean ====
section
/-! SUPPORT. Lengths in padding and in the split of a message into blocks (43_hash_commands.md R129, R131). -/

namespace Sys2Proof.Machine

open Sys2Proof

/-- A complete block of a message is 64 bytes. -/
theorem messageBlock_length (m : List Byte) (k : Nat) (h : k < m.length / 64) : (messageBlock m k).length = 64 := by
  simp only [messageBlock, List.length_take, List.length_drop]
  omega

/-- The tail of a message is what is left after its complete blocks. -/
@[simp] theorem messageTail_length (m : List Byte) : (messageTail m).length = m.length % 64 := by
  simp only [messageTail, List.length_drop]
  omega

@[simp] theorem messageBlocks_length (m : List Byte) : (messageBlocks m).length = m.length / 64 := by
  simp [messageBlocks]

/-- One padded block for a tail of fewer than 56 bytes, two from 56 on. -/
theorem padBlocks_count (tail : List Byte) (lbits : BitVec 64) :
    (padBlocks tail lbits).length = if tail.length < 56 then 1 else 2 := by
  unfold padBlocks
  split <;> rfl

end Sys2Proof.Machine
end

