-- ==== Sys2Proof/Laws/State.lean ====
section
/-! SUPPORT. One lemma per field per update of the state: later proofs never unfold an update. -/

namespace Sys2Proof.Machine

open Sys2Proof

/-! ### `accept` -/

@[simp] theorem accept_key (p : Pending) (s : State) : (accept p s).key = s.key := rfl
@[simp] theorem accept_din (p : Pending) (s : State) : (accept p s).din = s.din := rfl
@[simp] theorem accept_hin (p : Pending) (s : State) : (accept p s).hin = s.hin := rfl
@[simp] theorem accept_dout (p : Pending) (s : State) : (accept p s).dout = s.dout := rfl
@[simp] theorem accept_rk (p : Pending) (s : State) : (accept p s).rk = s.rk := rfl
@[simp] theorem accept_v (p : Pending) (s : State) : (accept p s).v = s.v := rfl
@[simp] theorem accept_hlen (p : Pending) (s : State) : (accept p s).hlen = s.hlen := rfl
@[simp] theorem accept_ieDone (p : Pending) (s : State) : (accept p s).ieDone = s.ieDone := rfl
@[simp] theorem accept_ieErr (p : Pending) (s : State) : (accept p s).ieErr = s.ieErr := rfl
@[simp] theorem accept_busy (p : Pending) (s : State) : (accept p s).busy = true := rfl
@[simp] theorem accept_done (p : Pending) (s : State) : (accept p s).done = false := rfl
@[simp] theorem accept_err (p : Pending) (s : State) : (accept p s).err = s.err := rfl
@[simp] theorem accept_rkv (p : Pending) (s : State) : (accept p s).rkv = s.rkv := rfl
@[simp] theorem accept_hact (p : Pending) (s : State) : (accept p s).hact = s.hact := rfl
@[simp] theorem accept_hfin (p : Pending) (s : State) : (accept p s).hfin = s.hfin := rfl
@[simp] theorem accept_errcode (p : Pending) (s : State) : (accept p s).errcode = s.errcode := rfl
@[simp] theorem accept_pend (p : Pending) (s : State) : (accept p s).pend = some p := rfl
@[simp] theorem accept_inputs (p : Pending) (s : State) : (accept p s).inputs = s.inputs := rfl
@[simp] theorem accept_lastRead (p : Pending) (s : State) : (accept p s).lastRead = s.lastRead := rfl
@[simp] theorem accept_freeCount (p : Pending) (s : State) : (accept p s).freeCount = s.freeCount := rfl

/-! ### `finish` -/

@[simp] theorem finish_key (s : State) : (finish s).key = s.key := rfl
@[simp] theorem finish_din (s : State) : (finish s).din = s.din := rfl
@[simp] theorem finish_hin (s : State) : (finish s).hin = s.hin := rfl
@[simp] theorem finish_dout (s : State) : (finish s).dout = s.dout := rfl
@[simp] theorem finish_rk (s : State) : (finish s).rk = s.rk := rfl
@[simp] theorem finish_v (s : State) : (finish s).v = s.v := rfl
@[simp] theorem finish_hlen (s : State) : (finish s).hlen = s.hlen := rfl
@[simp] theorem finish_ieDone (s : State) : (finish s).ieDone = s.ieDone := rfl
@[simp] theorem finish_ieErr (s : State) : (finish s).ieErr = s.ieErr := rfl
@[simp] theorem finish_busy (s : State) : (finish s).busy = false := rfl
@[simp] theorem finish_done (s : State) : (finish s).done = true := rfl
@[simp] theorem finish_err (s : State) : (finish s).err = s.err := rfl
@[simp] theorem finish_rkv (s : State) : (finish s).rkv = s.rkv := rfl
@[simp] theorem finish_hact (s : State) : (finish s).hact = s.hact := rfl
@[simp] theorem finish_hfin (s : State) : (finish s).hfin = s.hfin := rfl
@[simp] theorem finish_errcode (s : State) : (finish s).errcode = s.errcode := rfl
@[simp] theorem finish_pend (s : State) : (finish s).pend = none := rfl
@[simp] theorem finish_inputs (s : State) : (finish s).inputs = s.inputs := rfl
@[simp] theorem finish_lastRead (s : State) : (finish s).lastRead = s.lastRead := rfl
@[simp] theorem finish_freeCount (s : State) : (finish s).freeCount = s.freeCount := rfl

/-! ### `writeCtrl` -/

@[simp] theorem writeCtrl_key (w : Word) (s : State) : (writeCtrl w s).key = s.key := rfl
@[simp] theorem writeCtrl_din (w : Word) (s : State) : (writeCtrl w s).din = s.din := rfl
@[simp] theorem writeCtrl_hin (w : Word) (s : State) : (writeCtrl w s).hin = s.hin := rfl
@[simp] theorem writeCtrl_dout (w : Word) (s : State) : (writeCtrl w s).dout = s.dout := rfl
@[simp] theorem writeCtrl_rk (w : Word) (s : State) : (writeCtrl w s).rk = s.rk := rfl
@[simp] theorem writeCtrl_v (w : Word) (s : State) : (writeCtrl w s).v = s.v := rfl
@[simp] theorem writeCtrl_hlen (w : Word) (s : State) : (writeCtrl w s).hlen = s.hlen := rfl
@[simp] theorem writeCtrl_ieDone (w : Word) (s : State) : (writeCtrl w s).ieDone = w.getLsbD 0 := rfl
@[simp] theorem writeCtrl_ieErr (w : Word) (s : State) : (writeCtrl w s).ieErr = w.getLsbD 1 := rfl
@[simp] theorem writeCtrl_busy (w : Word) (s : State) : (writeCtrl w s).busy = s.busy := rfl
@[simp] theorem writeCtrl_done (w : Word) (s : State) : (writeCtrl w s).done = s.done := rfl
@[simp] theorem writeCtrl_err (w : Word) (s : State) : (writeCtrl w s).err = s.err := rfl
@[simp] theorem writeCtrl_rkv (w : Word) (s : State) : (writeCtrl w s).rkv = s.rkv := rfl
@[simp] theorem writeCtrl_hact (w : Word) (s : State) : (writeCtrl w s).hact = s.hact := rfl
@[simp] theorem writeCtrl_hfin (w : Word) (s : State) : (writeCtrl w s).hfin = s.hfin := rfl
@[simp] theorem writeCtrl_errcode (w : Word) (s : State) : (writeCtrl w s).errcode = s.errcode := rfl
@[simp] theorem writeCtrl_pend (w : Word) (s : State) : (writeCtrl w s).pend = s.pend := rfl
@[simp] theorem writeCtrl_inputs (w : Word) (s : State) : (writeCtrl w s).inputs = s.inputs := rfl
@[simp] theorem writeCtrl_lastRead (w : Word) (s : State) : (writeCtrl w s).lastRead = s.lastRead := rfl
@[simp] theorem writeCtrl_freeCount (w : Word) (s : State) : (writeCtrl w s).freeCount = s.freeCount := rfl

/-! ### `ackDone` -/

@[simp] theorem ackDone_key (s : State) : (ackDone s).key = s.key := rfl
@[simp] theorem ackDone_din (s : State) : (ackDone s).din = s.din := rfl
@[simp] theorem ackDone_hin (s : State) : (ackDone s).hin = s.hin := rfl
@[simp] theorem ackDone_dout (s : State) : (ackDone s).dout = s.dout := rfl
@[simp] theorem ackDone_rk (s : State) : (ackDone s).rk = s.rk := rfl
@[simp] theorem ackDone_v (s : State) : (ackDone s).v = s.v := rfl
@[simp] theorem ackDone_hlen (s : State) : (ackDone s).hlen = s.hlen := rfl
@[simp] theorem ackDone_ieDone (s : State) : (ackDone s).ieDone = s.ieDone := rfl
@[simp] theorem ackDone_ieErr (s : State) : (ackDone s).ieErr = s.ieErr := rfl
@[simp] theorem ackDone_busy (s : State) : (ackDone s).busy = s.busy := rfl
@[simp] theorem ackDone_done (s : State) : (ackDone s).done = false := rfl
@[simp] theorem ackDone_err (s : State) : (ackDone s).err = s.err := rfl
@[simp] theorem ackDone_rkv (s : State) : (ackDone s).rkv = s.rkv := rfl
@[simp] theorem ackDone_hact (s : State) : (ackDone s).hact = s.hact := rfl
@[simp] theorem ackDone_hfin (s : State) : (ackDone s).hfin = s.hfin := rfl
@[simp] theorem ackDone_errcode (s : State) : (ackDone s).errcode = s.errcode := rfl
@[simp] theorem ackDone_pend (s : State) : (ackDone s).pend = s.pend := rfl
@[simp] theorem ackDone_inputs (s : State) : (ackDone s).inputs = s.inputs := rfl
@[simp] theorem ackDone_lastRead (s : State) : (ackDone s).lastRead = s.lastRead := rfl
@[simp] theorem ackDone_freeCount (s : State) : (ackDone s).freeCount = s.freeCount := rfl

/-! ### `ackError` -/

@[simp] theorem ackError_key (s : State) : (ackError s).key = s.key := rfl
@[simp] theorem ackError_din (s : State) : (ackError s).din = s.din := rfl
@[simp] theorem ackError_hin (s : State) : (ackError s).hin = s.hin := rfl
@[simp] theorem ackError_dout (s : State) : (ackError s).dout = s.dout := rfl
@[simp] theorem ackError_rk (s : State) : (ackError s).rk = s.rk := rfl
@[simp] theorem ackError_v (s : State) : (ackError s).v = s.v := rfl
@[simp] theorem ackError_hlen (s : State) : (ackError s).hlen = s.hlen := rfl
@[simp] theorem ackError_ieDone (s : State) : (ackError s).ieDone = s.ieDone := rfl
@[simp] theorem ackError_ieErr (s : State) : (ackError s).ieErr = s.ieErr := rfl
@[simp] theorem ackError_busy (s : State) : (ackError s).busy = s.busy := rfl
@[simp] theorem ackError_done (s : State) : (ackError s).done = s.done := rfl
@[simp] theorem ackError_err (s : State) : (ackError s).err = false := rfl
@[simp] theorem ackError_rkv (s : State) : (ackError s).rkv = s.rkv := rfl
@[simp] theorem ackError_hact (s : State) : (ackError s).hact = s.hact := rfl
@[simp] theorem ackError_hfin (s : State) : (ackError s).hfin = s.hfin := rfl
@[simp] theorem ackError_errcode (s : State) : (ackError s).errcode = 0 := rfl
@[simp] theorem ackError_pend (s : State) : (ackError s).pend = s.pend := rfl
@[simp] theorem ackError_inputs (s : State) : (ackError s).inputs = s.inputs := rfl
@[simp] theorem ackError_lastRead (s : State) : (ackError s).lastRead = s.lastRead := rfl
@[simp] theorem ackError_freeCount (s : State) : (ackError s).freeCount = s.freeCount := rfl

/-! ### `hardReset` -/

@[simp] theorem hardReset_key (s : State) : (hardReset s).key = Vector.replicate 4 0 := rfl
@[simp] theorem hardReset_din (s : State) : (hardReset s).din = Vector.replicate 4 0 := rfl
@[simp] theorem hardReset_hin (s : State) : (hardReset s).hin = Vector.replicate 16 0 := rfl
@[simp] theorem hardReset_dout (s : State) : (hardReset s).dout = Vector.replicate 4 0 := rfl
@[simp] theorem hardReset_rk (s : State) : (hardReset s).rk = Vector.replicate 32 0 := rfl
@[simp] theorem hardReset_v (s : State) : (hardReset s).v = Vector.replicate 8 0 := rfl
@[simp] theorem hardReset_hlen (s : State) : (hardReset s).hlen = 0 := rfl
@[simp] theorem hardReset_ieDone (s : State) : (hardReset s).ieDone = false := rfl
@[simp] theorem hardReset_ieErr (s : State) : (hardReset s).ieErr = false := rfl
@[simp] theorem hardReset_busy (s : State) : (hardReset s).busy = false := rfl
@[simp] theorem hardReset_done (s : State) : (hardReset s).done = false := rfl
@[simp] theorem hardReset_err (s : State) : (hardReset s).err = false := rfl
@[simp] theorem hardReset_rkv (s : State) : (hardReset s).rkv = false := rfl
@[simp] theorem hardReset_hact (s : State) : (hardReset s).hact = false := rfl
@[simp] theorem hardReset_hfin (s : State) : (hardReset s).hfin = false := rfl
@[simp] theorem hardReset_errcode (s : State) : (hardReset s).errcode = 0 := rfl
@[simp] theorem hardReset_pend (s : State) : (hardReset s).pend = none := rfl
@[simp] theorem hardReset_inputs (s : State) : (hardReset s).inputs = s.inputs := rfl
@[simp] theorem hardReset_lastRead (s : State) : (hardReset s).lastRead = s.lastRead := rfl
@[simp] theorem hardReset_freeCount (s : State) : (hardReset s).freeCount = s.freeCount := rfl

/-! ### `clear` -/

@[simp] theorem clear_key (s : State) : (clear s).key = Vector.replicate 4 0 := rfl
@[simp] theorem clear_din (s : State) : (clear s).din = Vector.replicate 4 0 := rfl
@[simp] theorem clear_hin (s : State) : (clear s).hin = Vector.replicate 16 0 := rfl
@[simp] theorem clear_dout (s : State) : (clear s).dout = Vector.replicate 4 0 := rfl
@[simp] theorem clear_rk (s : State) : (clear s).rk = Vector.replicate 32 0 := rfl
@[simp] theorem clear_v (s : State) : (clear s).v = Vector.replicate 8 0 := rfl
@[simp] theorem clear_hlen (s : State) : (clear s).hlen = 0 := rfl
@[simp] theorem clear_ieDone (s : State) : (clear s).ieDone = s.ieDone := rfl
@[simp] theorem clear_ieErr (s : State) : (clear s).ieErr = s.ieErr := rfl
@[simp] theorem clear_busy (s : State) : (clear s).busy = false := rfl
@[simp] theorem clear_done (s : State) : (clear s).done = false := rfl
@[simp] theorem clear_err (s : State) : (clear s).err = false := rfl
@[simp] theorem clear_rkv (s : State) : (clear s).rkv = false := rfl
@[simp] theorem clear_hact (s : State) : (clear s).hact = false := rfl
@[simp] theorem clear_hfin (s : State) : (clear s).hfin = false := rfl
@[simp] theorem clear_errcode (s : State) : (clear s).errcode = 0 := rfl
@[simp] theorem clear_pend (s : State) : (clear s).pend = none := rfl
@[simp] theorem clear_inputs (s : State) : (clear s).inputs = s.inputs := rfl
@[simp] theorem clear_lastRead (s : State) : (clear s).lastRead = s.lastRead := rfl
@[simp] theorem clear_freeCount (s : State) : (clear s).freeCount = s.freeCount := rfl

/-! ### `completeKeyexp` -/

@[simp] theorem completeKeyexp_key (s : State) : (completeKeyexp s).key = s.key := rfl
@[simp] theorem completeKeyexp_din (s : State) : (completeKeyexp s).din = s.din := rfl
@[simp] theorem completeKeyexp_hin (s : State) : (completeKeyexp s).hin = s.hin := rfl
@[simp] theorem completeKeyexp_dout (s : State) : (completeKeyexp s).dout = s.dout := rfl
@[simp] theorem completeKeyexp_rk (s : State) : (completeKeyexp s).rk = keySchedule s.key := rfl
@[simp] theorem completeKeyexp_v (s : State) : (completeKeyexp s).v = s.v := rfl
@[simp] theorem completeKeyexp_hlen (s : State) : (completeKeyexp s).hlen = s.hlen := rfl
@[simp] theorem completeKeyexp_ieDone (s : State) : (completeKeyexp s).ieDone = s.ieDone := rfl
@[simp] theorem completeKeyexp_ieErr (s : State) : (completeKeyexp s).ieErr = s.ieErr := rfl
@[simp] theorem completeKeyexp_busy (s : State) : (completeKeyexp s).busy = s.busy := rfl
@[simp] theorem completeKeyexp_done (s : State) : (completeKeyexp s).done = s.done := rfl
@[simp] theorem completeKeyexp_err (s : State) : (completeKeyexp s).err = s.err := rfl
@[simp] theorem completeKeyexp_rkv (s : State) : (completeKeyexp s).rkv = true := rfl
@[simp] theorem completeKeyexp_hact (s : State) : (completeKeyexp s).hact = s.hact := rfl
@[simp] theorem completeKeyexp_hfin (s : State) : (completeKeyexp s).hfin = s.hfin := rfl
@[simp] theorem completeKeyexp_errcode (s : State) : (completeKeyexp s).errcode = s.errcode := rfl
@[simp] theorem completeKeyexp_pend (s : State) : (completeKeyexp s).pend = s.pend := rfl
@[simp] theorem completeKeyexp_inputs (s : State) : (completeKeyexp s).inputs = s.inputs := rfl
@[simp] theorem completeKeyexp_lastRead (s : State) : (completeKeyexp s).lastRead = s.lastRead := rfl
@[simp] theorem completeKeyexp_freeCount (s : State) : (completeKeyexp s).freeCount = s.freeCount := rfl

/-! ### `completeEnc` -/

@[simp] theorem completeEnc_key (s : State) : (completeEnc s).key = s.key := rfl
@[simp] theorem completeEnc_din (s : State) : (completeEnc s).din = s.din := rfl
@[simp] theorem completeEnc_hin (s : State) : (completeEnc s).hin = s.hin := rfl
@[simp] theorem completeEnc_dout (s : State) : (completeEnc s).dout = roundEngine s.din (keysForward s.rk) := rfl
@[simp] theorem completeEnc_rk (s : State) : (completeEnc s).rk = s.rk := rfl
@[simp] theorem completeEnc_v (s : State) : (completeEnc s).v = s.v := rfl
@[simp] theorem completeEnc_hlen (s : State) : (completeEnc s).hlen = s.hlen := rfl
@[simp] theorem completeEnc_ieDone (s : State) : (completeEnc s).ieDone = s.ieDone := rfl
@[simp] theorem completeEnc_ieErr (s : State) : (completeEnc s).ieErr = s.ieErr := rfl
@[simp] theorem completeEnc_busy (s : State) : (completeEnc s).busy = s.busy := rfl
@[simp] theorem completeEnc_done (s : State) : (completeEnc s).done = s.done := rfl
@[simp] theorem completeEnc_err (s : State) : (completeEnc s).err = s.err := rfl
@[simp] theorem completeEnc_rkv (s : State) : (completeEnc s).rkv = s.rkv := rfl
@[simp] theorem completeEnc_hact (s : State) : (completeEnc s).hact = s.hact := rfl
@[simp] theorem completeEnc_hfin (s : State) : (completeEnc s).hfin = s.hfin := rfl
@[simp] theorem completeEnc_errcode (s : State) : (completeEnc s).errcode = s.errcode := rfl
@[simp] theorem completeEnc_pend (s : State) : (completeEnc s).pend = s.pend := rfl
@[simp] theorem completeEnc_inputs (s : State) : (completeEnc s).inputs = s.inputs := rfl
@[simp] theorem completeEnc_lastRead (s : State) : (completeEnc s).lastRead = s.lastRead := rfl
@[simp] theorem completeEnc_freeCount (s : State) : (completeEnc s).freeCount = s.freeCount := rfl

/-! ### `completeDec` -/

@[simp] theorem completeDec_key (s : State) : (completeDec s).key = s.key := rfl
@[simp] theorem completeDec_din (s : State) : (completeDec s).din = s.din := rfl
@[simp] theorem completeDec_hin (s : State) : (completeDec s).hin = s.hin := rfl
@[simp] theorem completeDec_dout (s : State) : (completeDec s).dout = roundEngine s.din (keysReversed s.rk) := rfl
@[simp] theorem completeDec_rk (s : State) : (completeDec s).rk = s.rk := rfl
@[simp] theorem completeDec_v (s : State) : (completeDec s).v = s.v := rfl
@[simp] theorem completeDec_hlen (s : State) : (completeDec s).hlen = s.hlen := rfl
@[simp] theorem completeDec_ieDone (s : State) : (completeDec s).ieDone = s.ieDone := rfl
@[simp] theorem completeDec_ieErr (s : State) : (completeDec s).ieErr = s.ieErr := rfl
@[simp] theorem completeDec_busy (s : State) : (completeDec s).busy = s.busy := rfl
@[simp] theorem completeDec_done (s : State) : (completeDec s).done = s.done := rfl
@[simp] theorem completeDec_err (s : State) : (completeDec s).err = s.err := rfl
@[simp] theorem completeDec_rkv (s : State) : (completeDec s).rkv = s.rkv := rfl
@[simp] theorem completeDec_hact (s : State) : (completeDec s).hact = s.hact := rfl
@[simp] theorem completeDec_hfin (s : State) : (completeDec s).hfin = s.hfin := rfl
@[simp] theorem completeDec_errcode (s : State) : (completeDec s).errcode = s.errcode := rfl
@[simp] theorem completeDec_pend (s : State) : (completeDec s).pend = s.pend := rfl
@[simp] theorem completeDec_inputs (s : State) : (completeDec s).inputs = s.inputs := rfl
@[simp] theorem completeDec_lastRead (s : State) : (completeDec s).lastRead = s.lastRead := rfl
@[simp] theorem completeDec_freeCount (s : State) : (completeDec s).freeCount = s.freeCount := rfl

/-! ### `completeHinit` -/

@[simp] theorem completeHinit_key (s : State) : (completeHinit s).key = s.key := rfl
@[simp] theorem completeHinit_din (s : State) : (completeHinit s).din = s.din := rfl
@[simp] theorem completeHinit_hin (s : State) : (completeHinit s).hin = s.hin := rfl
@[simp] theorem completeHinit_dout (s : State) : (completeHinit s).dout = s.dout := rfl
@[simp] theorem completeHinit_rk (s : State) : (completeHinit s).rk = s.rk := rfl
@[simp] theorem completeHinit_v (s : State) : (completeHinit s).v = hashIv := rfl
@[simp] theorem completeHinit_hlen (s : State) : (completeHinit s).hlen = 0 := rfl
@[simp] theorem completeHinit_ieDone (s : State) : (completeHinit s).ieDone = s.ieDone := rfl
@[simp] theorem completeHinit_ieErr (s : State) : (completeHinit s).ieErr = s.ieErr := rfl
@[simp] theorem completeHinit_busy (s : State) : (completeHinit s).busy = s.busy := rfl
@[simp] theorem completeHinit_done (s : State) : (completeHinit s).done = s.done := rfl
@[simp] theorem completeHinit_err (s : State) : (completeHinit s).err = s.err := rfl
@[simp] theorem completeHinit_rkv (s : State) : (completeHinit s).rkv = s.rkv := rfl
@[simp] theorem completeHinit_hact (s : State) : (completeHinit s).hact = true := rfl
@[simp] theorem completeHinit_hfin (s : State) : (completeHinit s).hfin = false := rfl
@[simp] theorem completeHinit_errcode (s : State) : (completeHinit s).errcode = s.errcode := rfl
@[simp] theorem completeHinit_pend (s : State) : (completeHinit s).pend = s.pend := rfl
@[simp] theorem completeHinit_inputs (s : State) : (completeHinit s).inputs = s.inputs := rfl
@[simp] theorem completeHinit_lastRead (s : State) : (completeHinit s).lastRead = s.lastRead := rfl
@[simp] theorem completeHinit_freeCount (s : State) : (completeHinit s).freeCount = s.freeCount := rfl

/-! ### `completeHupdate` -/

@[simp] theorem completeHupdate_key (s : State) : (completeHupdate s).key = s.key := rfl
@[simp] theorem completeHupdate_din (s : State) : (completeHupdate s).din = s.din := rfl
@[simp] theorem completeHupdate_hin (s : State) : (completeHupdate s).hin = s.hin := rfl
@[simp] theorem completeHupdate_dout (s : State) : (completeHupdate s).dout = s.dout := rfl
@[simp] theorem completeHupdate_rk (s : State) : (completeHupdate s).rk = s.rk := rfl
@[simp] theorem completeHupdate_v (s : State) : (completeHupdate s).v = compress s.v (hinBytes s.hin) := rfl
@[simp] theorem completeHupdate_hlen (s : State) : (completeHupdate s).hlen = s.hlen + 512 := rfl
@[simp] theorem completeHupdate_ieDone (s : State) : (completeHupdate s).ieDone = s.ieDone := rfl
@[simp] theorem completeHupdate_ieErr (s : State) : (completeHupdate s).ieErr = s.ieErr := rfl
@[simp] theorem completeHupdate_busy (s : State) : (completeHupdate s).busy = s.busy := rfl
@[simp] theorem completeHupdate_done (s : State) : (completeHupdate s).done = s.done := rfl
@[simp] theorem completeHupdate_err (s : State) : (completeHupdate s).err = s.err := rfl
@[simp] theorem completeHupdate_rkv (s : State) : (completeHupdate s).rkv = s.rkv := rfl
@[simp] theorem completeHupdate_hact (s : State) : (completeHupdate s).hact = s.hact := rfl
@[simp] theorem completeHupdate_hfin (s : State) : (completeHupdate s).hfin = s.hfin := rfl
@[simp] theorem completeHupdate_errcode (s : State) : (completeHupdate s).errcode = s.errcode := rfl
@[simp] theorem completeHupdate_pend (s : State) : (completeHupdate s).pend = s.pend := rfl
@[simp] theorem completeHupdate_inputs (s : State) : (completeHupdate s).inputs = s.inputs := rfl
@[simp] theorem completeHupdate_lastRead (s : State) : (completeHupdate s).lastRead = s.lastRead := rfl
@[simp] theorem completeHupdate_freeCount (s : State) : (completeHupdate s).freeCount = s.freeCount := rfl

/-! ### `completeHfinal` -/

@[simp] theorem completeHfinal_key (r : BitVec 6) (s : State) : (completeHfinal r s).key = s.key := rfl
@[simp] theorem completeHfinal_din (r : BitVec 6) (s : State) : (completeHfinal r s).din = s.din := rfl
@[simp] theorem completeHfinal_hin (r : BitVec 6) (s : State) : (completeHfinal r s).hin = s.hin := rfl
@[simp] theorem completeHfinal_dout (r : BitVec 6) (s : State) : (completeHfinal r s).dout = s.dout := rfl
@[simp] theorem completeHfinal_rk (r : BitVec 6) (s : State) : (completeHfinal r s).rk = s.rk := rfl
@[simp] theorem completeHfinal_v (r : BitVec 6) (s : State) : (completeHfinal r s).v = compressAll s.v (padBlocks (tailBytes r.toNat s.hin) (lengthAfterTail s.hlen r.toNat)) := rfl
@[simp] theorem completeHfinal_hlen (r : BitVec 6) (s : State) : (completeHfinal r s).hlen = lengthAfterTail s.hlen r.toNat := rfl
@[simp] theorem completeHfinal_ieDone (r : BitVec 6) (s : State) : (completeHfinal r s).ieDone = s.ieDone := rfl
@[simp] theorem completeHfinal_ieErr (r : BitVec 6) (s : State) : (completeHfinal r s).ieErr = s.ieErr := rfl
@[simp] theorem completeHfinal_busy (r : BitVec 6) (s : State) : (completeHfinal r s).busy = s.busy := rfl
@[simp] theorem completeHfinal_done (r : BitVec 6) (s : State) : (completeHfinal r s).done = s.done := rfl
@[simp] theorem completeHfinal_err (r : BitVec 6) (s : State) : (completeHfinal r s).err = s.err := rfl
@[simp] theorem completeHfinal_rkv (r : BitVec 6) (s : State) : (completeHfinal r s).rkv = s.rkv := rfl
@[simp] theorem completeHfinal_hact (r : BitVec 6) (s : State) : (completeHfinal r s).hact = false := rfl
@[simp] theorem completeHfinal_hfin (r : BitVec 6) (s : State) : (completeHfinal r s).hfin = true := rfl
@[simp] theorem completeHfinal_errcode (r : BitVec 6) (s : State) : (completeHfinal r s).errcode = s.errcode := rfl
@[simp] theorem completeHfinal_pend (r : BitVec 6) (s : State) : (completeHfinal r s).pend = s.pend := rfl
@[simp] theorem completeHfinal_inputs (r : BitVec 6) (s : State) : (completeHfinal r s).inputs = s.inputs := rfl
@[simp] theorem completeHfinal_lastRead (r : BitVec 6) (s : State) : (completeHfinal r s).lastRead = s.lastRead := rfl
@[simp] theorem completeHfinal_freeCount (r : BitVec 6) (s : State) : (completeHfinal r s).freeCount = s.freeCount := rfl

/-! ### `raiseError` -/

@[simp] theorem raiseError_key (c : ErrCode) (s : State) : (raiseError c s).key = s.key := by
  unfold raiseError; split <;> rfl
@[simp] theorem raiseError_din (c : ErrCode) (s : State) : (raiseError c s).din = s.din := by
  unfold raiseError; split <;> rfl
@[simp] theorem raiseError_hin (c : ErrCode) (s : State) : (raiseError c s).hin = s.hin := by
  unfold raiseError; split <;> rfl
@[simp] theorem raiseError_dout (c : ErrCode) (s : State) : (raiseError c s).dout = s.dout := by
  unfold raiseError; split <;> rfl
@[simp] theorem raiseError_rk (c : ErrCode) (s : State) : (raiseError c s).rk = s.rk := by
  unfold raiseError; split <;> rfl
@[simp] theorem raiseError_v (c : ErrCode) (s : State) : (raiseError c s).v = s.v := by
  unfold raiseError; split <;> rfl
@[simp] theorem raiseError_hlen (c : ErrCode) (s : State) : (raiseError c s).hlen = s.hlen := by
  unfold raiseError; split <;> rfl
@[simp] theorem raiseError_ieDone (c : ErrCode) (s : State) : (raiseError c s).ieDone = s.ieDone := by
  unfold raiseError; split <;> rfl
@[simp] theorem raiseError_ieErr (c : ErrCode) (s : State) : (raiseError c s).ieErr = s.ieErr := by
  unfold raiseError; split <;> rfl
@[simp] theorem raiseError_busy (c : ErrCode) (s : State) : (raiseError c s).busy = s.busy := by
  unfold raiseError; split <;> rfl
@[simp] theorem raiseError_done (c : ErrCode) (s : State) : (raiseError c s).done = s.done := by
  unfold raiseError; split <;> rfl
@[simp] theorem raiseError_rkv (c : ErrCode) (s : State) : (raiseError c s).rkv = s.rkv := by
  unfold raiseError; split <;> rfl
@[simp] theorem raiseError_hact (c : ErrCode) (s : State) : (raiseError c s).hact = s.hact := by
  unfold raiseError; split <;> rfl
@[simp] theorem raiseError_hfin (c : ErrCode) (s : State) : (raiseError c s).hfin = s.hfin := by
  unfold raiseError; split <;> rfl
@[simp] theorem raiseError_pend (c : ErrCode) (s : State) : (raiseError c s).pend = s.pend := by
  unfold raiseError; split <;> rfl
@[simp] theorem raiseError_inputs (c : ErrCode) (s : State) : (raiseError c s).inputs = s.inputs := by
  unfold raiseError; split <;> rfl
@[simp] theorem raiseError_lastRead (c : ErrCode) (s : State) : (raiseError c s).lastRead = s.lastRead := by
  unfold raiseError; split <;> rfl
@[simp] theorem raiseError_freeCount (c : ErrCode) (s : State) : (raiseError c s).freeCount = s.freeCount := by
  unfold raiseError; split <;> rfl

@[simp] theorem raiseError_err (c : ErrCode) (s : State) : (raiseError c s).err = true := by
  unfold raiseError
  split
  · assumption
  · rfl
theorem raiseError_errcode (c : ErrCode) (s : State) :
    (raiseError c s).errcode = if s.err then s.errcode else errCodeValue c := by
  unfold raiseError
  split <;> rfl

/-! ### `writeStatus` -/

@[simp] theorem writeStatus_key (w : Word) (s : State) : (writeStatus w s).key = s.key := by
  unfold writeStatus; split <;> split <;> rfl
@[simp] theorem writeStatus_din (w : Word) (s : State) : (writeStatus w s).din = s.din := by
  unfold writeStatus; split <;> split <;> rfl
@[simp] theorem writeStatus_hin (w : Word) (s : State) : (writeStatus w s).hin = s.hin := by
  unfold writeStatus; split <;> split <;> rfl
@[simp] theorem writeStatus_dout (w : Word) (s : State) : (writeStatus w s).dout = s.dout := by
  unfold writeStatus; split <;> split <;> rfl
@[simp] theorem writeStatus_rk (w : Word) (s : State) : (writeStatus w s).rk = s.rk := by
  unfold writeStatus; split <;> split <;> rfl
@[simp] theorem writeStatus_v (w : Word) (s : State) : (writeStatus w s).v = s.v := by
  unfold writeStatus; split <;> split <;> rfl
@[simp] theorem writeStatus_hlen (w : Word) (s : State) : (writeStatus w s).hlen = s.hlen := by
  unfold writeStatus; split <;> split <;> rfl
@[simp] theorem writeStatus_ieDone (w : Word) (s : State) : (writeStatus w s).ieDone = s.ieDone := by
  unfold writeStatus; split <;> split <;> rfl
@[simp] theorem writeStatus_ieErr (w : Word) (s : State) : (writeStatus w s).ieErr = s.ieErr := by
  unfold writeStatus; split <;> split <;> rfl
@[simp] theorem writeStatus_busy (w : Word) (s : State) : (writeStatus w s).busy = s.busy := by
  unfold writeStatus; split <;> split <;> rfl
@[simp] theorem writeStatus_rkv (w : Word) (s : State) : (writeStatus w s).rkv = s.rkv := by
  unfold writeStatus; split <;> split <;> rfl
@[simp] theorem writeStatus_hact (w : Word) (s : State) : (writeStatus w s).hact = s.hact := by
  unfold writeStatus; split <;> split <;> rfl
@[simp] theorem writeStatus_hfin (w : Word) (s : State) : (writeStatus w s).hfin = s.hfin := by
  unfold writeStatus; split <;> split <;> rfl
@[simp] theorem writeStatus_pend (w : Word) (s : State) : (writeStatus w s).pend = s.pend := by
  unfold writeStatus; split <;> split <;> rfl
@[simp] theorem writeStatus_inputs (w : Word) (s : State) : (writeStatus w s).inputs = s.inputs := by
  unfold writeStatus; split <;> split <;> rfl
@[simp] theorem writeStatus_lastRead (w : Word) (s : State) : (writeStatus w s).lastRead = s.lastRead := by
  unfold writeStatus; split <;> split <;> rfl
@[simp] theorem writeStatus_freeCount (w : Word) (s : State) : (writeStatus w s).freeCount = s.freeCount := by
  unfold writeStatus; split <;> split <;> rfl

@[simp] theorem writeStatus_done (w : Word) (s : State) : (writeStatus w s).done = (s.done && !w.getLsbD 1) := by
  cases h1 : w.getLsbD 1 <;> cases h2 : w.getLsbD 2 <;> simp only [writeStatus, h1, h2] <;> simp
@[simp] theorem writeStatus_err (w : Word) (s : State) : (writeStatus w s).err = (s.err && !w.getLsbD 2) := by
  cases h1 : w.getLsbD 1 <;> cases h2 : w.getLsbD 2 <;> simp only [writeStatus, h1, h2] <;> simp
@[simp] theorem writeStatus_errcode (w : Word) (s : State) :
    (writeStatus w s).errcode = if w.getLsbD 2 then 0 else s.errcode := by
  cases h1 : w.getLsbD 1 <;> cases h2 : w.getLsbD 2 <;> simp only [writeStatus, h1, h2] <;> simp

/-! ### `storeOperand` -/

@[simp] theorem storeOperand_dout (r : Reg) (w : Word) (s : State) : (storeOperand r w s).dout = s.dout := by
  cases r <;> rfl
@[simp] theorem storeOperand_rk (r : Reg) (w : Word) (s : State) : (storeOperand r w s).rk = s.rk := by
  cases r <;> rfl
@[simp] theorem storeOperand_v (r : Reg) (w : Word) (s : State) : (storeOperand r w s).v = s.v := by
  cases r <;> rfl
@[simp] theorem storeOperand_hlen (r : Reg) (w : Word) (s : State) : (storeOperand r w s).hlen = s.hlen := by
  cases r <;> rfl
@[simp] theorem storeOperand_ieDone (r : Reg) (w : Word) (s : State) : (storeOperand r w s).ieDone = s.ieDone := by
  cases r <;> rfl
@[simp] theorem storeOperand_ieErr (r : Reg) (w : Word) (s : State) : (storeOperand r w s).ieErr = s.ieErr := by
  cases r <;> rfl
@[simp] theorem storeOperand_busy (r : Reg) (w : Word) (s : State) : (storeOperand r w s).busy = s.busy := by
  cases r <;> rfl
@[simp] theorem storeOperand_done (r : Reg) (w : Word) (s : State) : (storeOperand r w s).done = s.done := by
  cases r <;> rfl
@[simp] theorem storeOperand_err (r : Reg) (w : Word) (s : State) : (storeOperand r w s).err = s.err := by
  cases r <;> rfl
@[simp] theorem storeOperand_rkv (r : Reg) (w : Word) (s : State) : (storeOperand r w s).rkv = s.rkv := by
  cases r <;> rfl
@[simp] theorem storeOperand_hact (r : Reg) (w : Word) (s : State) : (storeOperand r w s).hact = s.hact := by
  cases r <;> rfl
@[simp] theorem storeOperand_hfin (r : Reg) (w : Word) (s : State) : (storeOperand r w s).hfin = s.hfin := by
  cases r <;> rfl
@[simp] theorem storeOperand_errcode (r : Reg) (w : Word) (s : State) : (storeOperand r w s).errcode = s.errcode := by
  cases r <;> rfl
@[simp] theorem storeOperand_pend (r : Reg) (w : Word) (s : State) : (storeOperand r w s).pend = s.pend := by
  cases r <;> rfl
@[simp] theorem storeOperand_inputs (r : Reg) (w : Word) (s : State) : (storeOperand r w s).inputs = s.inputs := by
  cases r <;> rfl
@[simp] theorem storeOperand_lastRead (r : Reg) (w : Word) (s : State) : (storeOperand r w s).lastRead = s.lastRead := by
  cases r <;> rfl
@[simp] theorem storeOperand_freeCount (r : Reg) (w : Word) (s : State) : (storeOperand r w s).freeCount = s.freeCount := by
  cases r <;> rfl

end Sys2Proof.Machine
end

