-- ==== Sys2Proof/Laws/Ops.lean ====
section
/-! SUPPORT. What each shared operation can do, said once. -/

namespace Sys2Proof.Machine

open Sys2Proof

/-- A command that goes in flight: refused while busy, refused by its own check, or accepted (30_encoding.md R94). -/
theorem issue_cases (check : Option ErrCode) (p : Pending) (s : State) :
    (s.busy = true ∧ issue check p s = raiseError .busy s) ∨
    (∃ c, s.busy = false ∧ check = some c ∧ issue check p s = raiseError c s) ∨
    (s.busy = false ∧ check = none ∧ issue check p s = accept p s) := by
  cases hb : s.busy <;> cases check <;> simp [issue, hb]

/-- A command that acts within its write: refused while busy, else its effect (R94). -/
theorem immediately_cases (f : State → State) (s : State) :
    (s.busy = true ∧ immediately f s = raiseError .busy s) ∨ (s.busy = false ∧ immediately f s = f s) := by
  cases hb : s.busy <;> simp [immediately, hb]

/-- A write to an operand register: dropped with an error while busy, else stored (20_memory.md R67). -/
theorem writeOperand_cases (r : Reg) (v : Word) (s : State) :
    (s.busy = true ∧ writeOperand r v s = raiseError .busy s) ∨
    (s.busy = false ∧ writeOperand r v s = storeOperand r v s) := by
  cases hb : s.busy <;> simp [writeOperand, hb]

/-- A read of a register (20_memory.md R63, R66). -/
theorem readReg_cases (r : Reg) (s : State) :
    (r.isResult = true ∧ s.busy = true ∧ readReg r s = 0) ∨
    ((r.isResult = false ∨ s.busy = false) ∧ readReg r s = regValue s r) := by
  cases hr : r.isResult <;> cases hb : s.busy <;> simp [readReg, hr, hb]

/-- The engine's turn (44_control_commands.md R144). -/
theorem engineStep_cases (s : State) :
    (s.busy = false ∧ engineStep s = s) ∨ (s.busy = true ∧ engineStep s = complete s) := by
  cases hb : s.busy <;> simp [engineStep, hb]

/-- A completion: the body of the command in flight, then the end of the busy time (R144). -/
theorem complete_cases (s : State) :
    (∃ p, s.pend = some p ∧ complete s = finish (completionBody p s)) ∨ (s.pend = none ∧ complete s = finish s) := by
  unfold complete
  cases s.pend <;> simp

/-- A completion body changes no operand, no flag of the command's life, no error and nothing of the model's own. -/
theorem completionBody_frame (p : Pending) (s : State) :
    (completionBody p s).key = s.key ∧ (completionBody p s).din = s.din ∧ (completionBody p s).hin = s.hin ∧
    (completionBody p s).ieDone = s.ieDone ∧ (completionBody p s).ieErr = s.ieErr ∧
    (completionBody p s).err = s.err ∧ (completionBody p s).errcode = s.errcode ∧
    (completionBody p s).inputs = s.inputs ∧ (completionBody p s).lastRead = s.lastRead ∧
    (completionBody p s).freeCount = s.freeCount := by
  rcases p with ⟨op, r⟩
  cases op <;> exact ⟨rfl, rfl, rfl, rfl, rfl, rfl, rfl, rfl, rfl, rfl⟩

/-- What a command can do at its CMD write: be refused with an error and nothing else, change nothing (NOP), clear (CLEAR),
or be accepted with what its acceptance checked (R94). -/
theorem exec_cases (i : Instr) (s : State) :
    ∃ t, exec i s = .next t ∧
      ((∃ c, t = raiseError c s) ∨ (s.busy = false ∧ i = .nop ∧ t = s) ∨ (s.busy = false ∧ i = .clear ∧ t = clear s) ∨
        ∃ p, s.busy = false ∧ t = accept p s ∧ (flightOpCode p.op = i.opcode ∧ p.rlen = i.rlen) ∧
          ((p.op = .hupdate ∨ p.op = .hfinal) → s.hact = true) ∧ ((p.op = .enc ∨ p.op = .dec) → s.rkv = true) ∧
          (p.op ≠ .hfinal → p.rlen = 0)) := by
  cases i with
  | nop =>
    refine ⟨_, rfl, ?_⟩
    rcases immediately_cases (fun t => t) s with ⟨_, h⟩ | ⟨hb, h⟩ <;> rw [h]
    · exact .inl ⟨_, rfl⟩
    · exact .inr (.inl ⟨hb, rfl, rfl⟩)
  | clear =>
    refine ⟨_, rfl, ?_⟩
    rcases immediately_cases clear s with ⟨_, h⟩ | ⟨hb, h⟩ <;> rw [h]
    · exact .inl ⟨_, rfl⟩
    · exact .inr (.inr (.inl ⟨hb, rfl, rfl⟩))
  | keyexp | hinit =>
    refine ⟨_, rfl, ?_⟩
    rcases issue_cases none _ s with ⟨_, h⟩ | ⟨c, _, _, h⟩ | ⟨hb, _, h⟩ <;> rw [h]
    · exact .inl ⟨_, rfl⟩
    · exact .inl ⟨_, rfl⟩
    · exact .inr (.inr (.inr ⟨_, hb, rfl, ⟨rfl, rfl⟩, by simp, by simp, fun _ => rfl⟩))
  | enc | dec =>
    refine ⟨_, rfl, ?_⟩
    rcases issue_cases (keyCheck s) _ s with ⟨_, h⟩ | ⟨c, _, _, h⟩ | ⟨hb, hc, h⟩ <;> rw [h]
    · exact .inl ⟨_, rfl⟩
    · exact .inl ⟨_, rfl⟩
    · exact .inr (.inr (.inr ⟨_, hb, rfl, ⟨rfl, rfl⟩, by simp, fun _ => by simpa [keyCheck] using hc, fun _ => rfl⟩))
  | hupdate | hfinal r =>
    refine ⟨_, rfl, ?_⟩
    rcases issue_cases (hashCheck s) _ s with ⟨_, h⟩ | ⟨c, _, _, h⟩ | ⟨hb, hc, h⟩ <;> rw [h]
    · exact .inl ⟨_, rfl⟩
    · exact .inl ⟨_, rfl⟩
    · exact .inr (.inr (.inr ⟨_, hb, rfl, ⟨rfl, rfl⟩, fun _ => by simpa [hashCheck] using hc, by simp, by simp⟩))

end Sys2Proof.Machine
end

