-- ==== Sys2Proof/Laws/PerInstr.lean ====
section
/-! SUPPORT. A fact about every command as syntax, command by command: its word has legal fields (30_encoding.md R89) and
is one of the words of its row of the opcode table. -/

namespace Sys2Proof.Laws.EncodedLegally

open Sys2Proof

/-- The command's word has legal fields and matches the opcode-table row of its mnemonic. -/
def Statement (i : Instr) : Prop :=
  (fieldsOf (encode i)).wellFormed = true ∧
    (opcodeTable.any fun r => r.mnemonic == i.mnemonic && r.matchesWord (encode i)) = true

theorem nop : Statement .nop := ⟨by decide, by decide⟩

theorem keyexp : Statement .keyexp := ⟨by decide, by decide⟩

theorem enc : Statement .enc := ⟨by decide, by decide⟩

theorem dec : Statement .dec := ⟨by decide, by decide⟩

theorem hinit : Statement .hinit := ⟨by decide, by decide⟩

theorem hupdate : Statement .hupdate := ⟨by decide, by decide⟩

theorem hfinal (rlen : BitVec 6) : Statement (.hfinal rlen) := by
  constructor <;> revert rlen <;> decide +kernel

theorem clear : Statement .clear := ⟨by decide, by decide⟩

end Sys2Proof.Laws.EncodedLegally
end

