-- ==== Sys2Proof/Laws/Window.lean ====
section
/-! SUPPORT. The register map: names and offsets, and what a transaction can do (20_memory.md R60 to R64). -/

namespace Sys2Proof.Machine

open Sys2Proof

/-- A named register's offset decodes to it (R60). -/
theorem regAt_offset (r : Reg) : regAt r.offset = r := by
  cases r with
  | key i | din i | dout i => revert i; decide
  | rk i => revert i; decide
  | hin i => revert i; decide
  | hdig i => revert i; decide
  | _ => rfl

/-- The register map by word index, read from the register (R60). -/
def Reg.atIndex (n : Nat) : Reg → Prop
  | .id => n = 0
  | .version => n = 1
  | .ctrl => n = 2
  | .status => n = 3
  | .cmd => n = 4
  | .hlenHi => n = 5
  | .hlenLo => n = 6
  | .key i => n = 8 + i.val
  | .din i => n = 12 + i.val
  | .dout i => n = 16 + i.val
  | .rk i => n = 32 + i.val
  | .hin i => n = 64 + i.val
  | .hdig i => n = 80 + i.val
  | .reserved => n = 7 ∨ (20 ≤ n ∧ n < 32) ∨ 88 ≤ n

/-- The register a word index decodes to stands at that index (R60). -/
theorem regOfIndex_atIndex (n : Nat) : (regOfIndex n).atIndex n := by
  unfold regOfIndex
  by_cases h8 : n < 8
  · rw [if_pos h8]
    interval_cases n <;> simp [controlReg, Reg.atIndex]
  rw [if_neg h8]
  by_cases h12 : n < 12
  · rw [if_pos h12]; simp only [Reg.atIndex, Fin.ofNat]; omega
  rw [if_neg h12]
  by_cases h16 : n < 16
  · rw [if_pos h16]; simp only [Reg.atIndex, Fin.ofNat]; omega
  rw [if_neg h16]
  by_cases h20 : n < 20
  · rw [if_pos h20]; simp only [Reg.atIndex, Fin.ofNat]; omega
  rw [if_neg h20]
  by_cases h32 : n < 32
  · rw [if_pos h32]; simp only [Reg.atIndex]; omega
  rw [if_neg h32]
  by_cases h64 : n < 64
  · rw [if_pos h64]; simp only [Reg.atIndex, Fin.ofNat]; omega
  rw [if_neg h64]
  by_cases h80 : n < 80
  · rw [if_pos h80]; simp only [Reg.atIndex, Fin.ofNat]; omega
  rw [if_neg h80]
  by_cases h88 : n < 88
  · rw [if_pos h88]; simp only [Reg.atIndex, Fin.ofNat]; omega
  rw [if_neg h88]
  simp only [Reg.atIndex]; omega

/-- No two registers stand at one index. -/
theorem atIndex_unique (n : Nat) (r q : Reg) (hr : r.atIndex n) (hq : q.atIndex n) : r = q := by
  cases r <;> cases q <;> simp only [Reg.atIndex] at hr hq <;>
    first | rfl | (exfalso; omega) | (congr 1; apply Fin.ext; omega)

/-- The register map in one statement (R60, R62). -/
theorem regAt_eq_iff (off : BitVec 12) (r : Reg) : regAt off = r ↔ r.atIndex (off.toNat / 4) :=
  ⟨fun h => h ▸ regOfIndex_atIndex _, fun h => atIndex_unique _ _ _ (regOfIndex_atIndex _) h⟩

/-- The low two bits of an offset do not choose the register (R62). -/
theorem regAt_eq_of_div (a b : BitVec 12) (h : a.toNat / 4 = b.toNat / 4) : regAt a = regAt b := by
  rw [regAt, regAt, h]

/-- What a host transaction can do to the core: the primitive changes of R63, R64 and R94. -/
inductive HostEffect (s : State) : State → Prop where
  | nothing : HostEffect s s
  | read (w : Word) : HostEffect s { s with lastRead := some w }
  | ctrl (w : Word) : HostEffect s (writeCtrl w s)
  | status (w : Word) : HostEffect s (writeStatus w s)
  | store (r : Reg) (w : Word) (idle : s.busy = false) : HostEffect s (storeOperand r w s)
  | refuse (c : ErrCode) : HostEffect s (raiseError c s)
  | clear (idle : s.busy = false) : HostEffect s (clear s)
  | accept (p : Pending) (idle : s.busy = false)
      (hash : (p.op = .hupdate ∨ p.op = .hfinal) → s.hact = true)
      (keyed : (p.op = .enc ∨ p.op = .dec) → s.rkv = true)
      (rlen : p.op ≠ .hfinal → p.rlen = 0) : HostEffect s (accept p s)

/-- A write to CMD (R94). -/
theorem commandWrite_effect (v : Word) (s : State) : ∃ t, commandWrite v s = .next t ∧ HostEffect s t := by
  unfold commandWrite
  split
  · exact ⟨_, rfl, .refuse _⟩
  · split
    · exact ⟨_, rfl, .refuse _⟩
    · rename_i i _
      obtain ⟨t, ht, h⟩ := exec_cases i s
      refine ⟨t, ht, ?_⟩
      rcases h with ⟨c, rfl⟩ | ⟨_, _, rfl⟩ | ⟨hb, _, rfl⟩ | ⟨p, hb, rfl, _, h1, h2, h3⟩
      · exact .refuse c
      · exact .nothing
      · exact .clear hb
      · exact .accept p hb h1 h2 h3

/-- A write to a register (R64). -/
theorem memWrite_effect (off : BitVec 12) (v : Word) (s : State) :
    ∃ t, memWrite off v s = .next t ∧ HostEffect s t := by
  have operand : ∀ r, ∃ t, (.next (writeOperand r v s) : Host.Outcome State Fault Refusal) = .next t ∧ HostEffect s t := by
    intro r
    refine ⟨_, rfl, ?_⟩
    rcases writeOperand_cases r v s with ⟨_, h⟩ | ⟨hb, h⟩ <;> rw [h]
    · exact .refuse _
    · exact .store r v hb
  unfold memWrite writeReg
  split
  · exact ⟨_, rfl, .ctrl v⟩
  · exact ⟨_, rfl, .status v⟩
  · exact commandWrite_effect v s
  · exact operand _
  · exact operand _
  · exact operand _
  all_goals exact ⟨_, rfl, .nothing⟩

/-- A host transaction: one of the primitive changes, after the free value of a narrow write was counted (R70). -/
theorem transact_effect (tr : Transaction) (s : State) :
    ∃ n t, transact tr s = .next t ∧ HostEffect { s with freeCount := n } t := by
  cases tr with
  | read off => exact ⟨s.freeCount, _, rfl, .read _⟩
  | write off v =>
    obtain ⟨t, ht, h⟩ := memWrite_effect off v s
    exact ⟨s.freeCount, t, ht, h⟩
  | narrowWrite off strobe v =>
    obtain ⟨t, ht, h⟩ := memWrite_effect off _ { s with freeCount := s.freeCount + 1 }
    exact ⟨_, t, ht, h⟩

/-- A reset, whatever transaction falls in its cycle (70_reset_and_hazards.md R168). -/
theorem ignoredTransaction_effect (t : Option Transaction) (s : State) :
    ∃ w, ignoredTransaction t s = { s with lastRead := w } := by
  unfold ignoredTransaction
  split
  · exact ⟨_, rfl⟩
  all_goals exact ⟨s.lastRead, rfl⟩

end Sys2Proof.Machine
end

