-- ==== Sys2Proof/Laws/Step.lean ====
section
/-! SUPPORT. What a step of the machine can do, said once: every invariant is derived from it (20_memory.md R76). -/

namespace Sys2Proof.Machine

open Sys2Proof

/-- A step is a host transaction, the engine's turn, or a reset, on the state with the step taken off the schedule. It always
answers a next state. -/
theorem step_effect (s : State) :
    ∃ t, step s = .next t ∧
      ((∃ tr es n, s.inputs = .host tr :: es ∧ HostEffect { s with inputs := es, freeCount := n } t) ∨
       (∃ es, (s.inputs = .engine :: es ∨ (s.inputs = [] ∧ es = [])) ∧ t = engineStep { s with inputs := es }) ∨
       (∃ ig es w, s.inputs = .reset ig :: es ∧ t = { hardReset { s with inputs := es } with lastRead := w })) := by
  unfold step
  split
  · rename_i e es he
    cases e with
    | host tr =>
      obtain ⟨n, t, ht, h⟩ := transact_effect tr { s with inputs := es }
      exact ⟨t, ht, .inl ⟨tr, es, n, he, h⟩⟩
    | engine => exact ⟨_, rfl, .inr (.inl ⟨es, .inl he, rfl⟩)⟩
    | reset ig =>
      obtain ⟨w, hw⟩ := ignoredTransaction_effect ig (hardReset { s with inputs := es })
      exact ⟨_, rfl, .inr (.inr ⟨ig, es, w, he, hw⟩)⟩
  · rename_i he
    refine ⟨_, rfl, .inr (.inl ⟨[], .inr ⟨he, rfl⟩, ?_⟩)⟩
    rw [← he]
    rfl

end Sys2Proof.Machine
end

