-- ==== Sys2Proof/Tests/Slice0.lean ====
section
/-! SUPPORT. The model's own tests: ill-formed fields refused, words written out from 30_encoding.md, vectors of
95_test_vectors.md, and for each statement with hypotheses or clauses a state and operands that meet them. -/

namespace Sys2Proof.Tests

open Sys2Proof Sys2Proof.Machine

/-! ### Helpers: small states -/

/-- The key and block of L1.1. -/
def sample : Vector Word 4 := #v[0x01234567, 0x89abcdef, 0xfedcba98, 0x76543210]

/-- Idle, with the sample key expanded and the block `x` in DIN. -/
def keyed (x : Vector Word 4) : State :=
  { State.reset with key := sample, din := x, rk := keySchedule sample, rkv := true, done := true }

/-- Idle, with a hash begun and the block `h` in HIN. -/
def absorbing (h : Vector Word 16) : State := { State.reset with hin := h, v := hashIv, hact := true, done := true }

/-- `s` with the command `p` in flight. -/
def flying (p : Pending) (s : State) : State := { s with pend := some p, busy := true, done := false }

/-- `s` with an error pending. -/
def failed (code : BitVec 4) (s : State) : State := { s with err := true, errcode := code }

/-- `s` with a schedule. -/
def scheduled (es : List Event) (s : State) : State := { s with inputs := es }

/-- The state a step answers (`s` itself if it does not answer one). -/
def after (s : State) : State :=
  match step s with
  | .next t => t
  | .fault _ => s
  | .refused _ => s

/-- A step answers the state `after` names. -/
theorem step_after (s : State) : step s = .next (after s) := by
  obtain ⟨t, h, _⟩ := step_effect s
  rw [after, h]

/-- The state after the host's write of the command word `w`. -/
def written (w : Nat) (s : State) : State := after (s.withFetchWord 32 w)

/-- The state after that write and the engine's step. -/
def completed (w : Nat) (s : State) : State := after (written w s)

/-- The state after one host write. -/
def stored (off : BitVec 12) (v : Word) (s : State) : State := after (scheduled [.host (.write off v)] s)

/-- The word one host read returns. -/
def fetched (off : BitVec 12) (s : State) : Option Word := (after (scheduled [.host (.read off)] s)).lastRead

/-- The tail words "abc" and garbage after it (P2). -/
def abcBlock : Vector Word 16 := #v[0x616263ff, 0xdeadbeef, 0, 0, 0, 0, 0, 0, 0, 0, 0, 0, 0, 0, 0, 0]

/-! ### WellFormed: each check refuses an ill-formed term -/

theorem test_wellformed_legal : (CmdFields.mk 6 0 63 0).wellFormed = true := by decide
theorem test_wellformed_opcode : (CmdFields.mk 8 0 0 0).wellFormed = false := by decide
theorem test_wellformed_rsv0 : (CmdFields.mk 1 1 0 0).wellFormed = false := by decide
theorem test_wellformed_rsv1 : (CmdFields.mk 1 0 0 1).wellFormed = false := by decide
theorem test_wellformed_rlen : (CmdFields.mk 7 0 1 0).wellFormed = false := by decide

/-! ### Decode: words written out as RSV1 (18 bits), RLEN (6), RSV0 (4), OP (4) from R84 and R87 -/

theorem test_decode_nop : decode 0b000000000000000000_000000_0000_0000 = .ok .nop := by decide
theorem test_decode_keyexp : decode 0b000000000000000000_000000_0000_0001 = .ok .keyexp := by decide
theorem test_decode_enc : decode 0b000000000000000000_000000_0000_0010 = .ok .enc := by decide
theorem test_decode_dec : decode 0b000000000000000000_000000_0000_0011 = .ok .dec := by decide
theorem test_decode_hinit : decode 0b000000000000000000_000000_0000_0100 = .ok .hinit := by decide
theorem test_decode_hupdate : decode 0b000000000000000000_000000_0000_0101 = .ok .hupdate := by decide
theorem test_decode_hfinal : decode 0b000000000000000000_110111_0000_0110 = .ok (.hfinal 55) := by decide
theorem test_decode_clear : decode 0b000000000000000000_000000_0000_0111 = .ok .clear := by decide

/-- Every reserved opcode, and each reserved field at its lowest and highest bit (R90, R91, L2.10). -/
theorem test_decode_refuses :
    ([0x8, 0x9, 0xa, 0xb, 0xc, 0xd, 0xe, 0xf, 0xffffffff] : List Word).map decode = List.replicate 9 (.error .badOp) ∧
    ([0x10, 0x80, 0x100, 0x2001, 0x4000, 0x80000001, 0x107, 0x4006, 0x16] : List Word).map decode =
      List.replicate 9 (.error .badCmd) := by decide

/-- The host's question of the table's words. -/
theorem test_decodeTableWord :
    decodeTableWord 32 0x3f06 = some (.hfinal 63) ∧ decodeTableWord 32 0x1 = some .keyexp ∧
      decodeTableWord 32 0x101 = none := by decide

/-! ### The disassembler (R99) -/

theorem test_disassemble :
    disassemble 0x00003f06 = "HFINAL 63" ∧ disassemble 0x00000001 = "KEYEXP" ∧
    disassemble 0x00000008 = ".word 0x00000008 ; illegal (ERR_BADOP)" ∧
    disassemble 0x00004006 = ".word 0x00004006 ; illegal (ERR_BADCMD)" := by decide +kernel

/-! ### Functions: vectors of L2.1 to L2.8 -/

/-- L2.1. -/
theorem test_rotl :
    rotl 0x80000001 1 = 0x00000003 ∧ rotl 0x12345678 0 = 0x12345678 ∧ rotl 0x12345678 16 = 0x56781234 ∧
      rotl 0x12345678 31 = 0x091a2b3c := by decide

/-- L2.2. -/
theorem test_transforms :
    tau 0x01234567 = 0x90f473a2 ∧ diffuse 0x01234567 = 0xfa26eb37 ∧ diffuseKey 0x01234567 = 0xda0f34e1 ∧
      transform 0x01234567 = 0x6ef180c9 ∧ transformKey 0x01234567 = 0xcfc85b85 ∧ transform 0x80000000 = 0x9767abab := by
  decide

/-- R109: the table of CK and its generator agree. -/
theorem test_ck_formula : ck = (List.range 32).map ckFormula := by decide +kernel

/-- L2.5. -/
theorem test_mixing :
    ff 0x0f0f0f0f 0x00ff00ff 0x33333333 15 = 0x3cc33cc3 ∧ ff 0x0f0f0f0f 0x00ff00ff 0x33333333 16 = 0x033f033f ∧
    gg 0x0f0f0f0f 0x00ff00ff 0x33333333 15 = 0x3cc33cc3 ∧ gg 0x0f0f0f0f 0x00ff00ff 0x33333333 16 = 0x303f303f ∧
    p0 0x12345678 = 0xd6688234 ∧ p1 0x12345678 = 0x05014549 ∧ rotl (tconst 63) (63 % 32) = 0x3d43cec5 := by decide

/-- L2.6, the padded "abc" block. -/
theorem test_expand :
    let w := expand ([0x61, 0x62, 0x63, 0x80] ++ List.replicate 59 0 ++ [0x18])
    w.getD 16 0 = 0x9092e200 ∧ w.getD 67 0 = 0xb99c0545 ∧ mixedWord w 63 = 0x49e260d5 := by decide +kernel

/-- L2.7, the all-zero block. -/
theorem test_compress :
    compress hashIv (List.replicate 64 0) =
      #v[0xa1203a40, 0x4a5566cd, 0x536fcee8, 0x20df7e13, 0x35c58f56, 0xb7c4c62e, 0x813c32cc, 0x47bf9b6c] := by
  decide +kernel

/-- L2.8 for 55 and 56 bytes. -/
theorem test_pad :
    padBlocks (List.replicate 55 0x61) 440 = [List.replicate 55 0x61 ++ [0x80] ++ [0, 0, 0, 0, 0, 0, 0x01, 0xb8]] ∧
    padBlocks (List.replicate 56 0x61) 448 =
      [List.replicate 56 0x61 ++ [0x80] ++ List.replicate 7 0, List.replicate 56 0 ++ [0, 0, 0, 0, 0, 0, 0x01, 0xc0]] := by
  decide +kernel

/-! ### Commands: one write, or one write and its completion -/

/-- R141's example. -/
theorem test_nop_keeps_status : statusWord (written 0x0 { State.reset with rkv := true }) = 0x00000008 := by decide
/-- L2.10. -/
theorem test_nop_busy : statusWord (written 0x0 (flying ⟨.keyexp, 0⟩ State.reset)) = 0x00000105 := by decide
/-- L2.10. -/
theorem test_keyexp_accepted :
    statusWord (written 0x1 State.reset) = 0x00000001 ∧ (written 0x1 State.reset).pend = some ⟨.keyexp, 0⟩ := by decide
/-- R112, the zero key. -/
theorem test_keyexp_completes :
    let t := completed 0x1 State.reset
    t.rk[0] = 0x45603b23 ∧ t.rk[31] = 0xa16ca108 ∧ statusWord t = 0x0000000a := by decide +kernel
/-- R113's example. -/
theorem test_enc_completes :
    (completed 0x2 (keyed sample)).dout = #v[0x681edf34, 0xd206965e, 0x86b3e94f, 0x536e4246] := by decide +kernel
/-- L2.10. -/
theorem test_enc_no_key : statusWord (written 0x2 State.reset) = 0x00000404 := by decide
/-- R114's example. -/
theorem test_dec_completes :
    (completed 0x3 (keyed #v[0x681edf34, 0xd206965e, 0x86b3e94f, 0x536e4246])).dout = sample := by decide +kernel
/-- L2.10: DONE of the command before is cleared at acceptance. -/
theorem test_dec_accepted : statusWord (written 0x3 (keyed sample)) = 0x00000009 := by decide +kernel
/-- R132's example. -/
theorem test_hinit_completes :
    let t := completed 0x4 State.reset
    t.v[0] = 0x7380166f ∧ t.v[7] = 0xb0fb0e4e ∧ t.hlen = 0 ∧ statusWord t = 0x00000012 := by decide +kernel
/-- L2.10: HINIT after HFINAL. -/
theorem test_hinit_after_final : statusWord (written 0x4 { State.reset with hfin := true, done := true }) = 0x00000021 := by
  decide
/-- R133's example. -/
theorem test_hupdate_completes :
    let t := completed 0x5 (absorbing (Vector.replicate 16 0x61626364))
    t.v = #v[0x5950de81, 0x468664eb, 0x42fd4c86, 0x1e7ca00a, 0xc0a5910b, 0xae9a55ea, 0x1adb8d17, 0x763ca222] ∧
      t.hlen = 512 := by decide +kernel
/-- L2.10. -/
theorem test_hupdate_no_hash : statusWord (written 0x5 State.reset) = 0x00000504 := by decide
/-- P2: "abc", with garbage in HIN beyond the tail. -/
theorem test_hfinal_abc :
    let t := completed 0x306 (absorbing abcBlock)
    t.v = #v[0x66c7f0f4, 0x62eeedd9, 0xd1f2d46b, 0xdc10e4e2, 0x4167c487, 0x5cf2f7a2, 0x297da02b, 0x8f4ba8e0] ∧
      t.hlen = 24 ∧ statusWord t = 0x00000022 := by decide +kernel
/-- L1.5: 63 bytes, two blocks. -/
theorem test_hfinal_63 :
    (completed 0x3f06 (absorbing (Vector.replicate 16 0x61616161))).v =
      #v[0x58730854, 0x3551881e, 0xbd70d27a, 0xd358ff5d, 0xcdf24ac5, 0x4822e2f7, 0xb7c3edce, 0x0985d21b] := by decide +kernel
/-- P6's end: CTRL is kept. -/
theorem test_clear :
    let t := written 0x7 { failed 4 (keyed sample) with ieDone := true, ieErr := true }
    statusWord t = 0 ∧ ctrlWord t = 3 ∧ t.key[0] = 0 ∧ t.rk[31] = 0 := by decide +kernel
/-- L2.12. -/
theorem test_clear_busy : statusWord (written 0x7 (flying ⟨.keyexp, 0⟩ State.reset)) = 0x00000105 := by decide

/-! ### Register access: L2.11, each offset range of R60 at its ends -/

theorem test_read_constants :
    fetched 0x000 State.reset = some 0x534d3433 ∧ fetched 0x004 State.reset = some 1 ∧ fetched 0x010 State.reset = some 0 ∧
      fetched 0x01c State.reset = some 0 ∧ fetched 0xffc State.reset = some 0 := by decide

/-- The register at the first and the last offset of each range, and just outside it. -/
theorem test_regions :
    [(0x020 : BitVec 12), 0x02f, 0x030, 0x03f, 0x040, 0x04f, 0x050, 0x07f, 0x080, 0x0fc, 0x100, 0x13c, 0x140, 0x15c, 0x160].map
        regAt =
      [.key 0, .key 3, .din 0, .din 3, .dout 0, .dout 3, .reserved, .reserved, .rk 0, .rk 31, .hin 0, .hin 15, .hdig 0,
        .hdig 7, .reserved] := by decide

theorem test_write_low_bits : fetched 0x02c (stored 0x02e 0x11111111 State.reset) = some 0x11111111 := by decide
theorem test_write_last_operand : fetched 0x13c (stored 0x13c 0x0badf00d State.reset) = some 0x0badf00d := by decide
theorem test_write_read_only : stored 0x080 0x12345678 State.reset = State.reset := by decide
theorem test_write_reserved : stored 0x01c 0x12345678 State.reset = State.reset := by decide
theorem test_write_ctrl : fetched 0x008 (stored 0x008 0xffffffff State.reset) = some 3 := by decide
/-- P6: acknowledge DONE only, then ERR. -/
theorem test_w1c :
    statusWord (stored 0x00c 0x2 { failed 1 State.reset with done := true }) = 0x00000104 ∧
      statusWord (stored 0x00c 0x4 { failed 1 State.reset with done := true }) = 0x00000002 := by decide
theorem test_operand_write_busy :
    let t := stored 0x100 1 (flying ⟨.hinit, 0⟩ State.reset)
    t.hin[0] = 0 ∧ statusWord t = 0x00000105 := by decide
theorem test_result_read_busy : fetched 0x140 (flying ⟨.hinit, 0⟩ (absorbing abcBlock)) = some 0 := by decide
/-- With every lane strobed no free byte is left. -/
theorem test_narrow_write_all_lanes (free : Word) : mergeLanes 0xf 0xcafef00d free = 0xcafef00d := by
  simp [mergeLanes, lane]

/-! ### Reset -/

/-- L2.12: reset aborts a command in flight, and a read in its cycle returns 0. -/
theorem test_reset_aborts :
    let t := after (scheduled [.reset (some (.read 0x000))] (flying ⟨.keyexp, 0⟩ { keyed sample with ieDone := true }))
    statusWord t = 0 ∧ ctrlWord t = 0 ∧ t.rk[0] = 0 ∧ t.lastRead = some 0 := by decide +kernel

/-! ### States and operands that meet the statements' hypotheses -/

/-- What the statements of idle commands ask for: NOP, CLEAR, KEYEXP, HINIT, and the refusals of ENC, DEC, HUPDATE and
HFINAL (`NopChangesNothing`, `ClearResetsAllButCtrl`, `KeyexpCompletes`, `HinitCompletes`, `CipherCommandsNeedRoundKeys`,
`HashCommandsNeedAnActiveHash`, `ResetValuesAreZero`). -/
theorem test_meets_idle :
    State.reset.busy = false ∧ State.reset.rkv = false ∧ State.reset.hact = false ∧ (0x10 : Word) ≠ 0 ∧
      (0x10 : Word).toNat % 16 = 0 := by decide

/-- `EncCompletes`, `DecCompletes`. -/
theorem test_meets_cipher : (keyed sample).busy = false ∧ (keyed sample).rkv = true := by decide

/-- `HupdateCompletes`, `HfinalCompletes`. -/
theorem test_meets_hash : (absorbing abcBlock).busy = false ∧ (absorbing abcBlock).hact = true := by decide

/-- `BusyRefusesEveryCommand`, `ResultsAreHiddenWhileBusy`, `CompletionKeepsOperandsAndErrors`, `EveryCommandInFlightEnds`. -/
theorem test_meets_busy : (flying ⟨.enc, 0⟩ (keyed sample)).busy = true := by decide

/-- `StepRunsTheDecodedCommand`, at CMD's offset and with its low bits set. -/
theorem test_meets_StepRunsTheDecodedCommand :
    decode 0x306 = .ok (.hfinal 3) ∧ regAt 0x010 = .cmd ∧ regAt 0x013 = .cmd ∧
      (scheduled [.host (.write 0x010 0x306)] State.reset).inputs = .host (.write 0x010 0x306) :: [] := by decide

/-- Each clause of `CommandWriteFollowsItsChecks`, in the order of R94, each at a word that would also meet a later one. -/
theorem test_clauses_CommandWriteFollowsItsChecks :
    statusWord (stored 0x010 0xffffffff (flying ⟨.enc, 0⟩ (keyed sample))) = 0x0000010d ∧
    statusWord (stored 0x010 0xffffffff State.reset) = 0x00000204 ∧
    statusWord (stored 0x010 0x00003f07 State.reset) = 0x00000304 ∧
    stored 0x010 0x00000000 State.reset = State.reset ∧
    statusWord (stored 0x010 0x00000007 (failed 4 State.reset)) = 0 ∧
    statusWord (stored 0x010 0x00000002 State.reset) = 0x00000404 ∧
    statusWord (stored 0x010 0x00003f06 State.reset) = 0x00000504 ∧
    (stored 0x010 0x00003f06 (absorbing abcBlock)).pend = some ⟨.hfinal, 63⟩ := by decide +kernel

/-- `ReservedOpcodesRaiseBadOp` at its ends, and each of the three cases of `ReservedFieldsRaiseBadCmd` alone at its
smallest and largest value. -/
theorem test_meets_reserved :
    ([0x8, 0xf] : List Word).all (fun w => 8 ≤ w.toNat % 16) = true ∧
    ([0x10, 0xf0, 0x4000, 0xffffc000, 0x101, 0x3f07] : List Word).all (fun w => w.toNat % 16 < 8 ∧
      (w.toNat / 16 % 16 ≠ 0 ∨ w.toNat / 2 ^ 14 ≠ 0 ∨ (w.toNat % 16 ≠ 6 ∧ w.toNat / 256 % 64 ≠ 0))) = true := by decide

/-- `RaiseErrorKeepsTheFirstCode`: both clauses. -/
theorem test_meets_RaiseErrorKeepsTheFirstCode :
    (failed 4 State.reset).err = true ∧ State.reset.err = false ∧ raiseError .busy (failed 4 State.reset) = failed 4 State.reset ∧
      raiseError .busy State.reset = failed 1 State.reset := by decide

/-- `ReadReturnsTheWordOfItsOffset`: the ends of each range of R63, idle, on a state that tells them apart. -/
theorem test_clauses_ReadReturnsTheWordOfItsOffset :
    let s : State :=
      { State.reset with
        key := sample, din := #v[1, 2, 3, 4], dout := #v[5, 6, 7, 8], hlen := 0x0000000900000200, hfin := true
        rk := (Vector.replicate 32 0).set 31 31, hin := (Vector.replicate 16 0).set 15 15, v := (Vector.replicate 8 0).set 7 77 }
    [(0x00c : BitVec 12), 0x014, 0x018, 0x020, 0x02c, 0x030, 0x03c, 0x040, 0x04c, 0x050, 0x07c, 0x080, 0x0fc, 0x100, 0x13c,
        0x140, 0x15c, 0x160, 0xfff].map (fun off => memRead off s) =
      [0x20, 9, 0x200, 0x01234567, 0x76543210, 1, 4, 5, 8, 0, 0, 0, 31, 0, 15, 0, 77, 0, 0] := by decide +kernel

/-- `WriteActsByItsOffset`: the ends of the operand ranges, idle, and their neighbours. -/
theorem test_clauses_WriteActsByItsOffset :
    (stored 0x020 9 State.reset).key[0] = 9 ∧ (stored 0x02c 9 State.reset).key[3] = 9 ∧
    (stored 0x030 9 State.reset).din[0] = 9 ∧ (stored 0x03c 9 State.reset).din[3] = 9 ∧
    (stored 0x100 9 State.reset).hin[0] = 9 ∧ (stored 0x13c 9 State.reset).hin[15] = 9 ∧
    stored 0x040 9 State.reset = State.reset ∧ stored 0x0fc 9 State.reset = State.reset ∧
    stored 0x140 9 State.reset = State.reset ∧ stored 0x000 9 State.reset = State.reset := by decide +kernel

/-- `OperandWriteReadsBackAlone`: both ranges at their ends, and a different register beside them. -/
theorem test_meets_OperandWriteReadsBackAlone :
    ([0x020, 0x03f] : List (BitVec 12)).all (fun off => 0x020 ≤ off.toNat ∧ off.toNat < 0x040) = true ∧
    ([0x100, 0x13f] : List (BitVec 12)).all (fun off => 0x100 ≤ off.toNat ∧ off.toNat < 0x140) = true ∧
    (0x024 : BitVec 12).toNat / 4 ≠ (0x020 : BitVec 12).toNat / 4 ∧ State.reset.busy = false := by decide

/-- `EngineStepsExactlyWhenBusy`: an idle and a busy state, with the engine next and with nothing scheduled. -/
theorem test_meets_EngineStepsExactlyWhenBusy :
    (scheduled [.engine] State.reset).inputs = .engine :: [] ∧ (scheduled [.engine] State.reset).busy = false ∧
    (scheduled [.engine] (flying ⟨.hinit, 0⟩ State.reset)).inputs = .engine :: [] ∧
    (flying ⟨.hinit, 0⟩ State.reset).busy = true ∧ (flying ⟨.hinit, 0⟩ State.reset).inputs = [] := by decide

/-- `NothingMovesUnderACommand`: a busy step that leaves the command in flight. -/
theorem test_meets_NothingMovesUnderACommand :
    let s := scheduled [.host (.write 0x020 7)] (flying ⟨.hinit, 0⟩ State.reset)
    s.busy = true ∧ step s = .next (after s) ∧ (after s).busy = true := ⟨by decide, step_after _, by decide⟩

/-- `TransactionsLeaveResultsButForClear`: a transaction of each kind of outcome. -/
theorem test_meets_TransactionsLeaveResultsButForClear :
    let s := scheduled [.host (.write 0x010 0x7)] (absorbing abcBlock)
    let u := scheduled [.host (.read 0x140)] (absorbing abcBlock)
    s.inputs = .host (.write 0x010 0x7) :: [] ∧ step s = .next (after s) ∧ (after s).v = Vector.replicate 8 0 ∧
      step u = .next (after u) ∧ (after u).v = hashIv := ⟨rfl, step_after _, by decide +kernel, step_after _, by decide +kernel⟩

/-- `EveryStepKeepsTheInvariant`, `HashPhasesFollowTheTable`: a state with a hash command in flight meets the invariant and
steps. -/
theorem test_meets_CoreInv :
    CoreInv (flying ⟨.hupdate, 0⟩ (absorbing abcBlock)) ∧
      step (flying ⟨.hupdate, 0⟩ (absorbing abcBlock)) = .next (after (flying ⟨.hupdate, 0⟩ (absorbing abcBlock))) := by
  refine ⟨⟨by decide, by decide, by decide, by decide, by decide, by decide, ?_⟩, step_after _⟩
  intro p hp
  cases hp
  decide

/-- `ReachableStatesMeetR49`: a state other than reset is reached. -/
theorem test_meets_Reachable : Reachable (flying ⟨.hinit, 0⟩ State.reset) :=
  ⟨[.host (.write 0x010 0x4)], 1, rfl⟩

/-- `RoundKeysAreAlwaysDerived`: a state with round keys, and a step that writes them. -/
theorem test_meets_scheduleDerived :
    scheduleDerived (keyed sample) ∧ (after (flying ⟨.keyexp, 0⟩ State.reset)).rkv = true :=
  ⟨fun _ => ⟨sample, rfl⟩, by decide +kernel⟩

/-- `CipherAndHashAreIndependent`: a cipher command and a hash command in flight. -/
theorem test_meets_CipherAndHashAreIndependent :
    (flying ⟨.enc, 0⟩ (keyed sample)).pend = some ⟨.enc, 0⟩ ∧ (flying ⟨.enc, 0⟩ (keyed sample)).busy = true ∧
    (flying ⟨.hinit, 0⟩ State.reset).pend = some ⟨.hinit, 0⟩ ∧ (flying ⟨.hinit, 0⟩ State.reset).busy = true := by decide

/-- `KeyScheduleIsInjective`: equal tails of schedules exist, those of equal keys; and different keys have different ones. -/
theorem test_meets_KeyScheduleIsInjective :
    (∀ i : Fin 32, 28 ≤ i.val → (keySchedule sample)[i] = (keySchedule sample)[i]) ∧
      (keySchedule sample)[31] ≠ (keySchedule (Vector.replicate 4 0))[31] := ⟨fun _ _ => rfl, by decide +kernel⟩

/-- `ExpandIsTheRecurrence`, `PaddingByteByByte`: a block, and a tail of each length at the ends of the two clauses. -/
theorem test_meets_blocks :
    (List.replicate 64 (0 : Byte)).length = 64 ∧
    ∀ r ∈ [0, 55, 56, 63], (List.replicate r (0x61 : Byte)).length ≤ 63 ∧
      (padBlocks (List.replicate r (0x61 : Byte)) 8).length = if r < 56 then 1 else 2 := by decide +kernel

/-- `HfinalIgnoresBytesBeyondTheTail`: for r = 3, another HIN with the same first three bytes. -/
theorem test_meets_HfinalIgnoresBytesBeyondTheTail :
    let s := flying ⟨.hfinal, 3⟩ (absorbing abcBlock)
    let hin : Vector Word 16 := Vector.replicate 16 0x61626300
    s.busy = true ∧ s.pend = some ⟨.hfinal, 3⟩ ∧ hin ≠ s.hin ∧
      ∀ (k : Fin 16) (m : Fin 4), 4 * k.val + m.val < (3 : BitVec 6).toNat → byte hin[k] m = byte s.hin[k] m := by
  decide +kernel

/-- `DecryptionUndoesEncryption`, `HashScriptComputesTheHash`: an idle state with a hash in progress and an error pending, and
a message of one block and a tail. -/
theorem test_meets_scripts :
    (failed 1 (absorbing abcBlock)).busy = false ∧ (List.replicate 119 (0x61 : Byte)).length < 2 ^ 61 := by decide

/-- `HinitForgetsTheOldChainingValueAndLength`: a chaining value to be forgotten. -/
theorem test_meets_HinitForgetsTheOldChainingValueAndLength :
    let s := flying ⟨.hinit, 0⟩ (absorbing abcBlock)
    s.busy = true ∧ s.pend = some ⟨.hinit, 0⟩ ∧ s.v ≠ Vector.replicate 8 0 := by decide

/-- `SameCycleTransactionComesFirst`: a completion due at this edge. -/
theorem test_meets_SameCycleTransactionComesFirst :
    let c : TimedState := ⟨flying ⟨.hinit, 0⟩ State.reset, 1⟩
    c.core.busy = true ∧ c.countdown ≤ 1 := by decide

/-- `CompletionComesAtItsLatency`: KEYEXP accepted at an edge, with a latency of 3. -/
theorem test_meets_CompletionComesAtItsLatency :
    let lat : Pending → State → Nat := fun _ _ => 3
    let pin : Pins := ⟨true, true, true, 0x004, 0x1⟩
    let c : TimedState := ⟨State.reset, 0⟩
    let d : TimedState := ⟨flying ⟨.keyexp, 0⟩ State.reset, 3⟩
    (∀ q s, 1 ≤ lat q s) ∧ c.core.busy = false ∧ clockEdge lat pin c = .next d ∧ d.core.pend = some ⟨.keyexp, 0⟩ ∧
      d.core.busy = true ∧ (∀ q ∈ [pin, pin, pin], q.rstN = true) := by
  exact ⟨fun _ _ => (by decide : 1 ≤ 3), rfl, rfl, rfl, rfl, by decide⟩

end Sys2Proof.Tests
end

section
/-! SUPPORT. Proofs about the state: what each operation gives and leaves, the invariant of 10_state.md R49 and the runs
that keep it, the reads of the window, and what HINIT hides. -/

namespace Sys2Proof.Machine

open Sys2Proof

/-! ### The error record and the checks of a command -/

/-- `raiseError` written as the one change of R151: both say that a pending error keeps its code. -/
theorem raiseError_eq_recorded (c : ErrCode) (s : State) : raiseError c s = recorded (errCodeValue c) s := by
  rcases s with ⟨⟩
  unfold raiseError recorded
  split <;> simp_all

/-- A command in flight refuses every other (30_encoding.md R94). -/
theorem issue_busy (check : Option ErrCode) (p : Pending) {s : State} (hb : s.busy = true) :
    issue check p s = raiseError .busy s := by simp [issue, hb]

/-- An idle core refuses a command whose own check fails. -/
theorem issue_refused (c : ErrCode) (p : Pending) {s : State} (hb : s.busy = false) :
    issue (some c) p s = raiseError c s := by simp [issue, hb]

theorem immediately_busy (f : State → State) {s : State} (hb : s.busy = true) :
    immediately f s = raiseError .busy s := by simp [immediately, hb]

theorem immediately_idle (f : State → State) {s : State} (hb : s.busy = false) : immediately f s = f s := by
  simp [immediately, hb]

theorem keyCheck_without_keys {s : State} (hk : s.rkv = false) : keyCheck s = some .noKey := by simp [keyCheck, hk]

theorem hashCheck_without_hash {s : State} (hh : s.hact = false) : hashCheck s = some .noHash := by
  simp [hashCheck, hh]

/-- Whatever the command, a CMD write while busy only records `ERR_BUSY` (70_reset_and_hazards.md R174). -/
theorem exec_busy (i : Instr) {s : State} (hb : s.busy = true) : exec i s = .next (raiseError .busy s) := by
  cases i with
  | nop => exact congrArg _ (immediately_busy _ hb)
  | clear => exact congrArg _ (immediately_busy _ hb)
  | keyexp | enc | dec | hinit | hupdate | hfinal r => exact congrArg _ (issue_busy _ _ hb)

/-- Settles O19: the check of RKV is the one that fails. -/
theorem cipherCommandsNeedRoundKeys : Obligations.CipherCommandsNeedRoundKeys := by
  intro s hb hk
  have refused (p : Pending) : issue (keyCheck s) p s = recorded 4 s := by
    rw [keyCheck_without_keys hk, issue_refused _ _ hb, raiseError_eq_recorded]; rfl
  exact ⟨congrArg _ (refused ⟨.enc, 0⟩), congrArg _ (refused ⟨.dec, 0⟩)⟩

/-- Settles O20: the check of HACT is the one that fails. -/
theorem hashCommandsNeedAnActiveHash : Obligations.HashCommandsNeedAnActiveHash := by
  intro s r hb hh
  have refused (p : Pending) : issue (hashCheck s) p s = recorded 5 s := by
    rw [hashCheck_without_hash hh, issue_refused _ _ hb, raiseError_eq_recorded]; rfl
  exact ⟨congrArg _ (refused ⟨.hupdate, 0⟩), congrArg _ (refused ⟨.hfinal, r⟩)⟩

/-! ### The CMD write as a step -/

/-- A scheduled step is taken off the schedule and carried out. -/
theorem step_of_inputs {s : State} {e : Event} {es : List Event} (h : s.inputs = e :: es) :
    step s = takeEvent e { s with inputs := es } := by
  simp only [step, h]

/-- A word that decodes does at its CMD write what its command does: the busy check of the write is also the command's
first check (R94). -/
theorem commandWrite_of_decode {w : Word} {i : Instr} (h : decode w = .ok i) (s : State) :
    commandWrite w s = exec i s := by
  cases hb : s.busy
  · simp [commandWrite, hb, h]
  · simp [commandWrite, hb, exec_busy i hb]

/-- The scheduled write of a command word to CMD runs the command. -/
theorem step_commandWrite {s : State} {off : BitVec 12} {w : Word} {i : Instr} {es : List Event}
    (hoff : regAt off = .cmd) (hin : s.inputs = .host (.write off w) :: es) (hw : decode w = .ok i) :
    step s = exec i { s with inputs := es } := by
  calc step s = writeReg (regAt off) w { s with inputs := es } := step_of_inputs hin
    _ = commandWrite w { s with inputs := es } := by rw [hoff]; rfl
    _ = exec i { s with inputs := es } := commandWrite_of_decode hw _

/-- The table word of a word's own value is the word. -/
theorem tableWord_toNat (w : Word) : tableWord 32 w.toNat = w := by
  rw [tableWord, Nat.mod_eq_of_lt w.isLt, BitVec.ofNat_toNat, BitVec.setWidth_eq]

/-- Settles O6: both steps are scheduled writes of the word to an offset that selects CMD. -/
theorem stepRunsTheDecodedCommand : Obligations.StepRunsTheDecodedCommand := by
  intro s off w i rest hw
  refine ⟨fun hoff hin => step_commandWrite hoff hin hw, ?_⟩
  have fetched : (s.withFetchWord 32 w.toNat).inputs = .host (.write cmdOffset w) :: s.inputs := by
    rw [State.withFetchWord, tableWord_toNat]; rfl
  exact step_commandWrite (regAt_offset .cmd) fetched hw

/-! ### Flags, the interrupt line and CTRL -/

/-- Settles O22: the line is the level's formula, read as a proposition. -/
theorem irqIsTheEnabledPendingLevel : Obligations.IrqIsTheEnabledPendingLevel := by
  intro s
  simp only [irq, Bool.or_eq_true, Bool.and_eq_true]

/-- Two adjacent flag bits taken from a word are its low two bits. -/
theorem low_two_bits (v : Word) :
    ((bit (v.getLsbD 1) ++ bit (v.getLsbD 0) : BitVec 2).setWidth 32 : Word) = v &&& 0x00000003 := by
  have flags : ∀ b1 b0 : Bool, (bit b1 ++ bit b0 : BitVec 2)[0] = b0 ∧ (bit b1 ++ bit b0 : BitVec 2)[1] = b1 := by decide
  apply BitVec.eq_of_getLsbD_eq
  intro i hi
  interval_cases i <;> simp [flags]

/-- CTRL reads back the two bits written to it (10_state.md R32). -/
theorem ctrlWord_writeCtrl (v : Word) (s : State) : ctrlWord (writeCtrl v s) = v &&& 0x00000003 := low_two_bits v

/-- Settles O23: the write is `writeCtrl`, whatever BUSY is. -/
theorem ctrlWriteMasksAtOnce : Obligations.CtrlWriteMasksAtOnce :=
  fun s v => ⟨writeCtrl v s, rfl, rfl, ctrlWord_writeCtrl v s, irqIsTheEnabledPendingLevel (writeCtrl v s)⟩

/-! ### Completion and reset -/

/-- Settles O31: the body of a completion keeps these fields, and its end writes only BUSY, DONE and PEND. -/
theorem completionKeepsOperandsAndErrors : Obligations.CompletionKeepsOperandsAndErrors := by
  intro s hb
  refine ⟨engineStep s, rfl, ?_⟩
  rcases engineStep_cases s with ⟨hidle, _⟩ | ⟨_, he⟩
  · simp [hb] at hidle
  rcases complete_cases s with ⟨p, _, hc⟩ | ⟨_, hc⟩
  · obtain ⟨hkey, hdin, hhin, hieDone, hieErr, herr, hcode, hinputs, hread, _⟩ := completionBody_frame p s
    rw [he, hc]
    exact ⟨rfl, rfl, rfl, herr, hcode, hieDone, hieErr, hkey, hdin, hhin, hinputs, hread⟩
  · rw [he, hc]
    exact ⟨rfl, rfl, rfl, rfl, rfl, rfl, rfl, rfl, rfl, rfl, rfl, rfl⟩

/-- Settles O35: `hardReset` reads no field of the core, and the transaction in the cycle reaches at most `lastRead`. -/
theorem resetStepGivesTheResetState : Obligations.ResetStepGivesTheResetState :=
  fun _ _ _ => ⟨rfl, rfl, fun _ => ⟨rfl, fun _ => rfl⟩⟩

/-- Settles O36: the registers of the reset state are zero vectors, and CLEAR in an idle core is `clear`. -/
theorem resetValuesAreZero : Obligations.ResetValuesAreZero := by
  refine ⟨?_, fun s hb => congrArg _ (immediately_idle clear hb)⟩
  simp [State.reset, irq]

/-! ### What every step keeps -/

/-- A property is kept by every step when no agent's own change breaks it: it does not speak of the model's own fields, it
is kept by each primitive change of a host transaction and by the engine's turn, and a reset gives it (20_memory.md R76). -/
theorem step_keeps {P : State → Prop}
    (own : ∀ s es w n, P s → P { s with inputs := es, lastRead := w, freeCount := n })
    (host : ∀ s t, P s → HostEffect s t → P t) (engine : ∀ s, P s → P (engineStep s))
    (reset : ∀ s, P (hardReset s))
    {s t : State} (hs : P s) (h : step s = .next t) : P t := by
  obtain ⟨u, hu, heffect⟩ := step_effect s
  obtain rfl : u = t := Host.Outcome.next.inj (hu.symm.trans h)
  rcases heffect with ⟨_, es, n, _, he⟩ | ⟨es, _, rfl⟩ | ⟨_, es, w, _, rfl⟩
  · exact host _ _ (own s es s.lastRead n hs) he
  · exact engine _ (own s es s.lastRead s.freeCount hs)
  · exact own _ es w s.freeCount (reset { s with inputs := es })

/-- What every step keeps, every run keeps. -/
theorem run_keeps {P : State → Prop} (hstep : ∀ s t, P s → step s = .next t → P t) (n : Nat) {s t : State} (hs : P s)
    (h : Host.Core.run Sys2Proof.core n s = .next t) : P t := by
  induction n generalizing s with
  | zero =>
    obtain rfl : s = t := Host.Outcome.next.inj h
    exact hs
  | succ n ih =>
    obtain ⟨u, hu, _⟩ := step_effect s
    have hrun : Host.Core.run Sys2Proof.core (n + 1) s = Host.Core.run Sys2Proof.core n u := by
      have hcore : Sys2Proof.core.step s = .next u := hu
      simp only [Host.Core.run, hcore]
    exact ih (hstep s u hs hu) (hrun.symm.trans h)

/-- A property that holds at reset under every schedule, and that every step keeps, holds of every reachable state. -/
theorem Reachable.keeps {P : State → Prop} (hreset : ∀ es, P { State.reset with inputs := es })
    (hstep : ∀ s t, P s → step s = .next t → P t) {s : State} (h : Reachable s) : P s := by
  obtain ⟨es, n, hrun⟩ := h
  exact run_keeps hstep n (hreset es) hrun

/-! ### The invariant of R49 -/

/-- The invariant does not speak of the schedule, the word last read, the free values used, or CTRL. -/
theorem CoreInv.of_own {s : State} (h : CoreInv s) (es : List Event) (w : Option Word) (n : Nat) :
    CoreInv { s with inputs := es, lastRead := w, freeCount := n } := { h with }

/-- A core with every flag and round key 0 and nothing in flight meets the invariant. -/
theorem coreInv_clear (s : State) : CoreInv (clear s) where
  busyIffPending := by simp [busyIffPending]
  notActiveAndFinal := by simp [notActiveAndFinal]
  activeWholeBlocks := by simp [activeWholeBlocks]
  errorCodeMatches := by simp [errorCodeMatches]
  busyNotDone := by simp [busyNotDone]
  noKeysWithoutRkv := by simp [noKeysWithoutRkv]
  pendingChecked := by simp [pendingChecked]

/-- A reset state meets the invariant: it is a cleared one but for CTRL, of which the invariant does not speak. -/
theorem coreInv_hardReset (s : State) : CoreInv (hardReset s) := { coreInv_clear s with }

/-- Every code of R150 is one of 1 to 5. -/
theorem errCodeValue_range (c : ErrCode) : 1 ≤ (errCodeValue c).toNat ∧ (errCodeValue c).toNat ≤ 5 := by
  cases c <;> decide

/-- An error record in which ERR and ERRCODE match still does after another error: the first code stays (R151). -/
theorem errorCodeMatches_raiseError (c : ErrCode) {s : State} (h : errorCodeMatches s) :
    errorCodeMatches (raiseError c s) := by
  refine ⟨by simp, fun _ => ?_⟩
  rw [raiseError_errcode]
  split
  · next herr => exact h.2 herr
  · exact errCodeValue_range c

/-- Clearing ERR clears ERRCODE with it (10_state.md R36). -/
theorem errorCodeMatches_writeStatus (w : Word) {s : State} (h : errorCodeMatches s) :
    errorCodeMatches (writeStatus w s) := by
  rw [errorCodeMatches, writeStatus_err, writeStatus_errcode]
  cases w.getLsbD 2
  · simpa [errorCodeMatches] using h
  · simp

/-- What the invariant speaks of beside DONE and the error record. -/
def guardedFields (s : State) : Bool × Option Pending × Bool × Bool × BitVec 64 × Bool × Vector Word 32 :=
  (s.busy, s.pend, s.hact, s.hfin, s.hlen, s.rkv, s.rk)

/-- A change of operands, of the error record and of nothing else but DONE, which it may only clear, keeps the invariant. -/
theorem CoreInv.of_guardedFields {s t : State} (h : CoreInv s) (hfields : guardedFields t = guardedFields s)
    (hdone : t.done = true → s.done = true) (herr : Machine.errorCodeMatches t) : CoreInv t := by
  simp only [guardedFields, Prod.mk.injEq] at hfields
  obtain ⟨hbusy, hpend, hhact, hhfin, hhlen, hrkv, hrk⟩ := hfields
  exact {
    busyIffPending := by rw [Machine.busyIffPending, hbusy, hpend]; exact h.busyIffPending
    notActiveAndFinal := by rw [Machine.notActiveAndFinal, hhact, hhfin]; exact h.notActiveAndFinal
    activeWholeBlocks := by rw [Machine.activeWholeBlocks, hhact, hhlen]; exact h.activeWholeBlocks
    errorCodeMatches := herr
    busyNotDone := fun hb => Bool.eq_false_of_not_eq_true fun hd => by
      simpa [hdone hd] using h.busyNotDone (hbusy ▸ hb)
    noKeysWithoutRkv := by rw [Machine.noKeysWithoutRkv, hrkv, hrk]; exact h.noKeysWithoutRkv
    pendingChecked := by rw [Machine.pendingChecked, hpend, hhact, hrkv]; exact h.pendingChecked }

/-- Each primitive change of a host transaction keeps the invariant. -/
theorem CoreInv.host {s t : State} (h : CoreInv s) (he : HostEffect s t) : CoreInv t := by
  cases he with
  | nothing => exact h
  | read w => exact { h with }
  | ctrl w => exact { h with }
  | clear _ => exact coreInv_clear s
  | status w =>
    refine h.of_guardedFields (by simp [guardedFields]) ?_ (errorCodeMatches_writeStatus w h.errorCodeMatches)
    rw [writeStatus_done, Bool.and_eq_true]
    exact And.left
  | store r w _ =>
    refine h.of_guardedFields (by simp [guardedFields]) (by simp) ?_
    rw [Machine.errorCodeMatches, storeOperand_err, storeOperand_errcode]
    exact h.errorCodeMatches
  | refuse c =>
    exact h.of_guardedFields (by simp [guardedFields]) (by simp) (errorCodeMatches_raiseError c h.errorCodeMatches)
  | accept p _ hash keyed rlen =>
    exact { h with
      busyIffPending := by simp [Machine.busyIffPending]
      busyNotDone := fun _ => rfl
      pendingChecked := by
        intro q hq
        obtain rfl : p = q := Option.some.inj hq
        exact ⟨hash, keyed, rlen⟩ }

/-- The clauses of the invariant about what the core holds, the life of a command apart: those a completion body has to
keep. -/
structure DataInv (s : State) : Prop where
  notActiveAndFinal : notActiveAndFinal s
  activeWholeBlocks : activeWholeBlocks s
  errorCodeMatches : errorCodeMatches s
  noKeysWithoutRkv : noKeysWithoutRkv s

theorem CoreInv.data {s : State} (h : CoreInv s) : DataInv s := { h with }

/-- The end of a completion meets the clauses about the life of a command by itself. -/
theorem DataInv.finish {s : State} (h : DataInv s) : CoreInv (finish s) := { h with
  busyIffPending := by simp [busyIffPending]
  busyNotDone := by simp [busyNotDone]
  pendingChecked := by simp [pendingChecked] }

/-- One block more keeps the length a number of whole blocks, the wrap at 2^64 included (43_hash_commands.md R133). -/
theorem add_block_mod (x : BitVec 64) (h : x.toNat % 512 = 0) : (x + 512).toNat % 512 = 0 := by
  rw [BitVec.toNat_add, show (512 : BitVec 64).toNat = 512 from rfl]
  omega

/-- The body of every completion keeps what the core holds well-formed. -/
theorem DataInv.completionBody {s : State} (h : DataInv s) (p : Pending) : DataInv (completionBody p s) := by
  rcases p with ⟨op, r⟩
  cases op with
  | keyexp => exact { h with noKeysWithoutRkv := fun hk => Bool.noConfusion hk }
  | enc => exact { h with }
  | dec => exact { h with }
  | hinit => exact { h with notActiveAndFinal := fun hf => Bool.noConfusion hf.2, activeWholeBlocks := fun _ => rfl }
  | hupdate => exact { h with activeWholeBlocks := fun ha => add_block_mod _ (h.activeWholeBlocks ha) }
  | hfinal =>
    exact { h with
      notActiveAndFinal := fun hf => Bool.noConfusion hf.1
      activeWholeBlocks := fun ha => Bool.noConfusion ha }

/-- The engine's turn keeps the invariant. -/
theorem CoreInv.engine {s : State} (h : CoreInv s) : CoreInv (engineStep s) := by
  rcases engineStep_cases s with ⟨_, he⟩ | ⟨_, he⟩ <;> rw [he]
  · exact h
  rcases complete_cases s with ⟨p, _, hc⟩ | ⟨_, hc⟩ <;> rw [hc]
  · exact (h.data.completionBody p).finish
  · exact h.data.finish

/-- Settles O38, agent by agent. -/
theorem everyStepKeepsTheInvariant : Obligations.EveryStepKeepsTheInvariant := fun _ _ hs h =>
  step_keeps (fun _ es w n h => h.of_own es w n) (fun _ _ h he => h.host he) (fun _ h => h.engine) coreInv_hardReset hs h

/-- Settles O39: with its schedule put in, the reset state is one that a reset step gives. -/
theorem resetMeetsTheInvariant : Obligations.ResetMeetsTheInvariant :=
  fun es => (coreInv_hardReset State.reset).of_own es none 0

/-- The invariant implies R49: clause (c) is asked of idle states only. -/
theorem CoreInv.r49 {s : State} (h : CoreInv s) : R49 s :=
  { h with wholeBlocksWhenIdle := fun ha _ => h.activeWholeBlocks ha }

/-- Settles O40, by the invariant `CoreInv`. -/
theorem reachableStatesMeetR49 : Obligations.ReachableStatesMeetR49 := fun _ h =>
  (h.keeps resetMeetsTheInvariant everyStepKeepsTheInvariant).r49

/-! ### Round keys -/

/-- A host transaction leaves the round keys as they were, or it is CLEAR and there are none. -/
theorem HostEffect.round_keys {s t : State} (he : HostEffect s t) : (t.rkv = s.rkv ∧ t.rk = s.rk) ∨ t.rkv = false := by
  cases he with
  | clear _ => exact .inr rfl
  | nothing | read _ | ctrl _ | accept _ _ _ _ _ => exact .inl ⟨rfl, rfl⟩
  | status w => exact .inl ⟨writeStatus_rkv w s, writeStatus_rk w s⟩
  | store r w _ => exact .inl ⟨storeOperand_rkv r w s, storeOperand_rk r w s⟩
  | refuse c => exact .inl ⟨raiseError_rkv c s, raiseError_rk c s⟩

theorem scheduleDerived_of_no_keys {s : State} (h : s.rkv = false) : scheduleDerived s := fun hk => by simp [h] at hk

theorem scheduleDerived_host {s t : State} (h : scheduleDerived s) (he : HostEffect s t) : scheduleDerived t := by
  rcases he.round_keys with ⟨hrkv, hrk⟩ | hrkv
  · rw [scheduleDerived, hrkv, hrk]; exact h
  · exact scheduleDerived_of_no_keys hrkv

/-- Only KEYEXP's completion writes RK, and it writes the schedule of KEY (41_cipher_commands.md R112). -/
theorem scheduleDerived_completionBody {s : State} (h : scheduleDerived s) (p : Pending) :
    scheduleDerived (completionBody p s) := by
  rcases p with ⟨op, r⟩
  cases op with
  | keyexp => exact fun _ => ⟨s.key, rfl⟩
  | enc | dec | hinit | hupdate | hfinal => exact h

theorem scheduleDerived_engine {s : State} (h : scheduleDerived s) : scheduleDerived (engineStep s) := by
  rcases engineStep_cases s with ⟨_, he⟩ | ⟨_, he⟩ <;> rw [he]
  · exact h
  rcases complete_cases s with ⟨p, _, hc⟩ | ⟨_, hc⟩ <;> rw [hc]
  · exact scheduleDerived_completionBody h p
  · exact h

/-- Settles O41, agent by agent. -/
theorem roundKeysAreAlwaysDerived : Obligations.RoundKeysAreAlwaysDerived :=
  ⟨fun _ _ hs h => step_keeps (P := scheduleDerived) (fun _ _ _ _ h => h) (fun _ _ => scheduleDerived_host)
    (fun _ => scheduleDerived_engine) (fun _ => scheduleDerived_of_no_keys rfl) hs h, scheduleDerived_of_no_keys rfl⟩

/-! ### Operand registers: what a read returns after a write -/

/-- The offsets of KEY, DIN and HIN select operand registers (20_memory.md R60). -/
theorem regAt_isOperand {off : BitVec 12}
    (h : (0x020 ≤ off.toNat ∧ off.toNat < 0x040) ∨ (0x100 ≤ off.toNat ∧ off.toNat < 0x140)) :
    (regAt off).isOperand = true := by
  have hat := (regAt_eq_iff off _).mp rfl
  cases hr : regAt off with
  | key i | din i | hin i => rfl
  | _ => rw [hr] at hat; simp only [Reg.atIndex] at hat; omega

/-- An operand register stands at one word index only (a reserved one does not). -/
theorem atIndex_index_unique {r : Reg} (hr : r.isOperand = true) {n m : Nat} (hn : r.atIndex n) (hm : r.atIndex m) :
    n = m := by
  cases r <;> simp only [Reg.isOperand, Reg.atIndex, Bool.false_eq_true] at hr hn hm <;> omega

/-- A write to an operand register of an idle core stores the word (R64). -/
theorem writeReg_operand {r : Reg} (hr : r.isOperand = true) (v : Word) {s : State} (hb : s.busy = false) :
    writeReg r v s = .next (storeOperand r v s) := by
  have hw : writeOperand r v s = storeOperand r v s := by simp [writeOperand, hb]
  cases r with
  | key i | din i | hin i => exact congrArg _ hw
  | _ => simp [Reg.isOperand] at hr

/-- An operand register reads back the word stored in it (10_state.md R22 to R24). -/
theorem readReg_storeOperand_same {r : Reg} (hr : r.isOperand = true) (v : Word) (s : State) :
    readReg r (storeOperand r v s) = v := by
  cases r with
  | key i | din i | hin i => simp [readReg, Reg.isResult, regValue, storeOperand]
  | _ => simp [Reg.isOperand] at hr

/-- Storing an operand leaves the value of every other register. -/
theorem regValue_storeOperand_ne {q r : Reg} (hne : q ≠ r) (v : Word) (s : State) :
    regValue (storeOperand r v s) q = regValue s q := by
  cases r with
  | key i | din i | hin i =>
    cases q with
    | key j | din j | hin j => simp_all [regValue, storeOperand, Fin.ext_iff, eq_comm]
    | _ => rfl
  | _ => rfl

/-- Storing an operand leaves what every other register reads (70_reset_and_hazards.md R180). -/
theorem readReg_storeOperand_ne {q r : Reg} (hne : q ≠ r) (v : Word) (s : State) :
    readReg q (storeOperand r v s) = readReg q s := by
  rw [readReg, readReg, storeOperand_busy, regValue_storeOperand_ne hne]

/-- Settles O27: the offset selects an operand register, and an offset of another word another register. -/
theorem operandWriteReadsBackAlone : Obligations.OperandWriteReadsBackAlone := by
  intro s off v hb hoff
  have hop := regAt_isOperand hoff
  refine ⟨storeOperand (regAt off) v s, writeReg_operand hop v hb, readReg_storeOperand_same hop v s, ?_⟩
  intro other hword
  have hne : regAt other ≠ regAt off := fun heq =>
    hword (atIndex_index_unique hop ((regAt_eq_iff other _).mp heq) ((regAt_eq_iff off _).mp rfl))
  exact readReg_storeOperand_ne hne v s

/-! ### What a command in flight hides -/

/-- A register that is no result register does not show the results. -/
theorem regValue_of_not_result {r : Reg} (hr : r.isResult = false) (s : State) (dout : Vector Word 4)
    (rk : Vector Word 32) (v : Vector Word 8) (hlen : BitVec 64) :
    regValue { s with dout := dout, rk := rk, v := v, hlen := hlen } r = regValue s r := by
  cases r with
  | hlenHi | hlenLo | dout i | rk i | hdig i => simp [Reg.isResult] at hr
  | _ => rfl

/-- Settles O28: a result register reads 0 while busy, and no other register shows the results. -/
theorem resultsAreHiddenWhileBusy : Obligations.ResultsAreHiddenWhileBusy := by
  intro s off dout rk v hlen hb
  unfold memRead
  cases hr : (regAt off).isResult
  · simp only [readReg, hr, Bool.false_and, Bool.false_eq_true, if_false]
    exact regValue_of_not_result hr s dout rk v hlen
  · simp [readReg, hr, hb]

/-- `s` with another chaining value and length: what HINIT is to forget. -/
def withChaining (v : Vector Word 8) (hlen : BitVec 64) (s : State) : State := { s with v := v, hlen := hlen }

theorem memRead_withChaining (off : BitVec 12) (v : Vector Word 8) (hlen : BitVec 64) {s : State} (hb : s.busy = true) :
    memRead off (withChaining v hlen s) = memRead off s :=
  resultsAreHiddenWhileBusy s off s.dout s.rk v hlen hb

theorem raiseError_withChaining (c : ErrCode) (v : Vector Word 8) (hlen : BitVec 64) (s : State) :
    raiseError c (withChaining v hlen s) = withChaining v hlen (raiseError c s) := by
  simp only [raiseError_eq_recorded]; rfl

theorem writeStatus_withChaining (w : Word) (v : Vector Word 8) (hlen : BitVec 64) (s : State) :
    writeStatus w (withChaining v hlen s) = withChaining v hlen (writeStatus w s) := by
  unfold writeStatus; split <;> split <;> rfl

/-- What a write at an offset does while a command is in flight: it is refused, or it writes CTRL or STATUS, or the offset
takes no writes (20_memory.md R64). Which of them, the offset says. -/
theorem memWrite_busy_cases (off : BitVec 12) (w : Word) :
    (∀ s : State, s.busy = true → memWrite off w s = .next (raiseError .busy s)) ∨
    (∀ s : State, memWrite off w s = .next (writeCtrl w s)) ∨
    (∀ s : State, memWrite off w s = .next (writeStatus w s)) ∨ (∀ s : State, memWrite off w s = .next s) := by
  unfold memWrite
  cases regAt off with
  | ctrl => exact .inr (.inl fun _ => rfl)
  | status => exact .inr (.inr (.inl fun _ => rfl))
  | cmd => exact .inl fun s hb => by simp [writeReg, commandWrite, hb]
  | key i | din i | hin i => exact .inl fun s hb => by simp [writeReg, writeOperand, hb]
  | _ => exact .inr (.inr (.inr fun _ => rfl))

/-- A write while busy neither ends the flight nor sees the chaining value and length. -/
theorem memWrite_withChaining (off : BitVec 12) (w : Word) (v : Vector Word 8) (hlen : BitVec 64) {s : State}
    (hb : s.busy = true) :
    ∃ t, memWrite off w s = .next t ∧ t.busy = true ∧ t.pend = s.pend ∧
      memWrite off w (withChaining v hlen s) = .next (withChaining v hlen t) := by
  rcases memWrite_busy_cases off w with h | h | h | h
  · exact ⟨_, h s hb, by simp [hb], by simp, by rw [h (withChaining v hlen s) hb, raiseError_withChaining]⟩
  · exact ⟨_, h s, hb, rfl, h _⟩
  · exact ⟨_, h s, by simp [hb], by simp, by rw [h, writeStatus_withChaining]⟩
  · exact ⟨_, h s, hb, rfl, h _⟩

/-- A transaction while busy neither ends the flight nor sees the chaining value and length. -/
theorem transact_withChaining (tr : Transaction) (v : Vector Word 8) (hlen : BitVec 64) {s : State} (hb : s.busy = true) :
    ∃ t, transact tr s = .next t ∧ t.busy = true ∧ t.pend = s.pend ∧
      transact tr (withChaining v hlen s) = .next (withChaining v hlen t) := by
  cases tr with
  | read off =>
    refine ⟨_, rfl, hb, rfl, ?_⟩
    rw [transact, memRead_withChaining off v hlen hb]; rfl
  | write off w => exact memWrite_withChaining off w v hlen hb
  | narrowWrite off strobe w =>
    exact memWrite_withChaining off _ v hlen (s := { s with freeCount := s.freeCount + 1 }) hb

/-- HINIT's completion overwrites the chaining value and length, and reads neither (43_hash_commands.md R132). -/
theorem engineStep_hinit_withChaining (v : Vector Word 8) (hlen : BitVec 64) {s : State} {r : BitVec 6}
    (hb : s.busy = true) (hp : s.pend = some ⟨.hinit, r⟩) : engineStep (withChaining v hlen s) = engineStep s := by
  simp [engineStep, complete, withChaining, hb, hp, completionBody, completeHinit, finish]

/-- One step with HINIT in flight: it stays in flight and the old chaining value and length stay apart, or they are gone. -/
theorem step_hinit_withChaining (v : Vector Word 8) (hlen : BitVec 64) {s : State} {r : BitVec 6}
    (hb : s.busy = true) (hp : s.pend = some ⟨.hinit, r⟩) :
    ∃ t, step s = .next t ∧
      ((t.busy = true ∧ t.pend = some ⟨.hinit, r⟩ ∧ step (withChaining v hlen s) = .next (withChaining v hlen t)) ∨
        step (withChaining v hlen s) = .next t) := by
  cases hin : s.inputs with
  | nil =>
    refine ⟨engineStep s, by rw [step, hin]; rfl, .inr ?_⟩
    rw [← engineStep_hinit_withChaining v hlen hb hp, step, withChaining, hin]; rfl
  | cons e es =>
    have hin' : (withChaining v hlen s).inputs = e :: es := hin
    rw [step_of_inputs hin, step_of_inputs hin']
    cases e with
    | host tr =>
      obtain ⟨t, ht, htb, htp, ht'⟩ := transact_withChaining tr v hlen (s := { s with inputs := es }) hb
      exact ⟨t, ht, .inl ⟨htb, htp.trans hp, ht'⟩⟩
    | engine =>
      exact ⟨_, rfl, .inr (congrArg Host.Outcome.next
        (engineStep_hinit_withChaining v hlen (s := { s with inputs := es }) hb hp))⟩
    | reset ig => exact ⟨_, rfl, .inr rfl⟩

/-- While busy, the word the next step returns does not show the chaining value and length. -/
theorem returnedWord_withChaining (v : Vector Word 8) (hlen : BitVec 64) {s : State} (hb : s.busy = true) :
    returnedWord (withChaining v hlen s) = returnedWord s := by
  have hin : (withChaining v hlen s).inputs = s.inputs := rfl
  simp only [returnedWord, hin, memRead_withChaining _ v hlen hb]

/-- What the host observes from a step that answers `t`. -/
theorem observations_succ {s t : State} (h : step s = .next t) (n : Nat) :
    observations (n + 1) s = ⟨returnedWord s, irq t⟩ :: observations n t := by
  simp only [observations, h]

/-- Settles O56, by induction on the number of steps: until HINIT ends, the two runs differ in the chaining value and length
alone; from then on they are one run. -/
theorem hinitForgetsTheOldChainingValueAndLength : Obligations.HinitForgetsTheOldChainingValueAndLength := by
  intro s r v hlen n hb hp
  change observations n (withChaining v hlen s) = observations n s
  induction n generalizing s with
  | zero => rfl
  | succ n ih =>
    obtain ⟨t, ht, ⟨htb, htp, ht'⟩ | ht'⟩ := step_hinit_withChaining v hlen hb hp
    · rw [observations_succ ht, observations_succ ht', returnedWord_withChaining v hlen hb, ih t htb htp]; rfl
    · rw [observations_succ ht, observations_succ ht', returnedWord_withChaining v hlen hb]

end Sys2Proof.Machine
end

section
/-! SUPPORT. Proofs about the window: what a read and a write do at each offset, and what a step leaves alone while a command
is in flight. -/

namespace Sys2Proof.Machine

open Sys2Proof

/-! ### Words as numbers -/

theorem toNat_append_eq_mul_add {n m : Nat} (x : BitVec n) (y : BitVec m) :
    (x ++ y).toNat = x.toNat * 2 ^ m + y.toNat := by
  rw [BitVec.toNat_append, ← Nat.shiftLeft_add_eq_or_of_lt y.isLt, Nat.shiftLeft_eq]

theorem bit_toNat (b : Bool) : (bit b).toNat = b.toNat := BitVec.toNat_ofBool b

/-- The CTRL word by its place values (10_state.md R32). -/
theorem ctrlWord_eq_ofNat (s : State) : ctrlWord s = BitVec.ofNat 32 (2 * s.ieErr.toNat + s.ieDone.toNat) := by
  apply BitVec.eq_of_toNat_eq
  simp only [ctrlWord, BitVec.toNat_setWidth, BitVec.toNat_ofNat, toNat_append_eq_mul_add, bit_toNat]
  congr 1
  omega

/-- The STATUS word by its place values, bits 6 and 7 being 0 (10_state.md R33). -/
theorem statusWord_eq_ofNat (s : State) :
    statusWord s = BitVec.ofNat 32 (256 * s.errcode.toNat + 32 * s.hfin.toNat + 16 * s.hact.toNat + 8 * s.rkv.toNat +
      4 * s.err.toNat + 2 * s.done.toNat + s.busy.toNat) := by
  have reserved : (0 : BitVec 2).toNat = 0 := rfl
  apply BitVec.eq_of_toNat_eq
  simp only [statusWord, BitVec.toNat_setWidth, BitVec.toNat_ofNat, toNat_append_eq_mul_add, bit_toNat, reserved]
  congr 1
  omega

theorem highWord_eq_ofNat (x : BitVec 64) : x.extractLsb' 32 32 = BitVec.ofNat 32 (x.toNat / 2 ^ 32) := by
  rw [← Nat.shiftRight_eq_div_pow]
  rfl

theorem lowWord_eq_ofNat (x : BitVec 64) : x.extractLsb' 0 32 = BitVec.ofNat 32 (x.toNat % 2 ^ 32) := by
  apply BitVec.eq_of_toNat_eq
  simp

/-! ### Register arrays by word offset -/

/-- Word `i` of a register array whose first word has index `b` and offset `a` (20_memory.md R60). -/
theorem slot_index {a b : Nat} (h : a = 4 * b) (i : Nat) : ((b + i) * 4 - a) / 4 = i := by omega

theorem toList_getD_fin {n : Nat} (x : Vector Word n) (i : Fin n) : x.toList.getD i.val 0 = x[i] := by simp

theorem setIfInBounds_fin {n : Nat} (x : Vector Word n) (i : Fin n) (v : Word) :
    x.setIfInBounds i.val v = x.set i v := by
  ext j hj
  rw [Vector.getElem_setIfInBounds, Vector.getElem_set]

/-- A guard that holds leaves its condition to the other conjunct. -/
theorem ite_and_of_left {α : Type} {p q : Prop} [Decidable p] [Decidable q] (hp : p) (x y : α) :
    (if p ∧ q then x else y) = if q then x else y := by simp only [hp, true_and]

/-! ### Reads -/

theorem readReg_of_not_result {r : Reg} (hr : r.isResult = false) (s : State) : readReg r s = regValue s r := by
  simp [readReg, hr]

/-- A result register reads 0 while a command is in flight (20_memory.md R66). -/
theorem readReg_of_result {r : Reg} (hr : r.isResult = true) (s : State) :
    readReg r s = if s.busy = true then 0 else regValue s r := by simp [readReg, hr]

/-- Settles O24: the offset's word index fixes the register, and the register where the chain of R63 ends. -/
theorem readReturnsTheWordOfItsOffset : Obligations.ReadReturnsTheWordOfItsOffset := by
  intro s off
  refine ⟨?_, fun _ => rfl⟩
  have hat := (regAt_eq_iff off _).mp rfl
  unfold memRead
  generalize regAt off = r at hat ⊢
  generalize off.toNat / 4 = n at hat ⊢
  cases r with
  | id | version | cmd => subst hat; rfl
  | ctrl => subst hat; exact ctrlWord_eq_ofNat s
  | status => subst hat; exact statusWord_eq_ofNat s
  | hlenHi | hlenLo =>
    subst hat
    rw [readReg_of_result rfl]
    simp [regValue, highWord_eq_ofNat, lowWord_eq_ofNat]
  | key i | din i | hin i =>
    subst hat
    rw [readReg_of_not_result rfl]
    simp (disch := omega) only [if_pos, if_neg, slot_index, toList_getD_fin, regValue]
  | dout i | rk i | hdig i =>
    subst hat
    rw [readReg_of_result rfl]
    simp (disch := omega) only [if_pos, if_neg, ite_and_of_left, slot_index, toList_getD_fin, regValue]
  | reserved =>
    simp only [Reg.atIndex] at hat
    rw [readReg_of_not_result rfl]
    simp (disch := omega) only [if_neg, regValue]

/-! ### Writes -/

/-- A write to STATUS as one change of DONE, ERR and ERRCODE (10_state.md R33). -/
theorem writeStatus_eq (v : Word) (s : State) :
    writeStatus v s = { s with
      done := s.done && !v.getLsbD 1, err := s.err && !v.getLsbD 2
      errcode := if v.getLsbD 2 then 0 else s.errcode } := by
  unfold writeStatus ackDone ackError
  cases v.getLsbD 1 <;> cases v.getLsbD 2 <;> simp

/-- A write to an operand register, the core busy or idle (20_memory.md R64, R67). -/
theorem writeReg_of_operand {r : Reg} (hr : r.isOperand = true) (v : Word) (s : State) :
    writeReg r v s = if s.busy = true then .next (recorded 1 s) else .next (storeOperand r v s) := by
  cases hb : s.busy
  · exact writeReg_operand hr v hb
  · have refused : writeOperand r v s = recorded 1 s := by
      rw [writeOperand, if_pos hb, raiseError_eq_recorded]; rfl
    cases r with
    | key i | din i | hin i => exact congrArg _ refused
    | _ => simp [Reg.isOperand] at hr

/-- Settles O25: the offset's word index fixes the register, and the register where the chain of R64 ends. -/
theorem writeActsByItsOffset : Obligations.WriteActsByItsOffset := by
  intro s off v
  have hat := (regAt_eq_iff off _).mp rfl
  unfold memWrite
  generalize regAt off = r at hat ⊢
  generalize off.toNat / 4 = n at hat ⊢
  cases r with
  | id | version | ctrl | cmd | hlenHi | hlenLo => subst hat; rfl
  | status => subst hat; exact congrArg _ (writeStatus_eq v s)
  | key i | din i | hin i =>
    subst hat
    rw [writeReg_of_operand rfl]
    simp (disch := omega) only [if_pos, if_neg, slot_index, setIfInBounds_fin, storeOperand]
  | dout i | rk i | hdig i | reserved =>
    simp only [Reg.atIndex] at hat
    simp (disch := omega) only [if_neg, writeReg]

/-! ### Offsets and addresses -/

/-- Clearing the low two bits of an offset keeps its word index (20_memory.md R62). -/
theorem and_0xFFC_div_four (off : BitVec 12) : (off &&& 0xFFC).toNat / 4 = off.toNat / 4 := by
  calc (off &&& 0xFFC).toNat / 2 ^ 2 = off.toNat / 2 ^ 2 &&& 2 ^ 10 - 1 := by
        rw [BitVec.toNat_and, Nat.and_div_two_pow]; rfl
    _ = off.toNat / 2 ^ 2 % 2 ^ 10 := Nat.and_two_pow_sub_one_eq_mod _ _
    _ = off.toNat / 2 ^ 2 := Nat.mod_eq_of_lt (by omega)

/-- The host's address of an offset is decoded back to it (R62). -/
theorem windowOffset_hostAddress (off : BitVec 12) : windowOffset (hostAddress off) = some off := by
  have hlt : off.toNat < 4096 := off.isLt
  rw [windowOffset, hostAddress, if_pos (by omega), Nat.add_sub_cancel_left, BitVec.ofNat_toNat, BitVec.setWidth_eq]

/-- The core sees no address outside the window (R62). -/
theorem windowOffset_eq_none_iff (addr : Nat) :
    windowOffset addr = none ↔ addr < Config.base ∨ Config.base + 2 ^ 12 ≤ addr := by
  rw [windowOffset, ite_eq_right_iff]
  simp only [reduceCtorEq, imp_false]
  omega

/-- Settles O26: reads and writes see an offset through `regAt` alone. -/
theorem offsetsSelectRegistersByWord : Obligations.OffsetsSelectRegistersByWord := by
  refine ⟨fun s off v => ?_, windowOffset_hostAddress, windowOffset_eq_none_iff⟩
  have hreg : regAt (off &&& 0xFFC) = regAt off := regAt_eq_of_div _ _ (and_0xFFC_div_four off)
  rw [memRead, memRead, memWrite, memWrite, hreg]
  exact ⟨rfl, rfl⟩

/-! ### Narrow writes -/

/-- The bus data word has its lanes in place: it is a word of bytes, lane 3 its byte 0 (R70). -/
theorem mergeLanes_lane (strobe : BitVec 4) (v free : Word) (m : Fin 4) :
    (mergeLanes strobe v free).extractLsb' (8 * m.val) 8 = lane strobe v free m := by
  obtain ⟨h3, h2, h1, h0⟩ :=
    bytes_of_word (lane strobe v free 3) (lane strobe v free 2) (lane strobe v free 1) (lane strobe v free 0)
  fin_cases m
  exacts [h0, h1, h2, h3]

/-- Settles O29: the word is the bus data word, whatever the free value. -/
theorem narrowWriteKeepsItsStrobedBytes : Obligations.NarrowWriteKeepsItsStrobedBytes := by
  intro s off strobe v es
  refine ⟨mergeLanes strobe v (Config.freeWord s.freeCount), fun m hm => ?_, rfl⟩
  rw [mergeLanes_lane, lane, if_pos hm]

/-! ### What a command in flight and a transaction leave alone -/

/-- The result registers (20_memory.md R66). -/
def resultRegisters (s : State) : Vector Word 4 × Vector Word 32 × Vector Word 8 × BitVec 64 :=
  (s.dout, s.rk, s.v, s.hlen)

/-- A host transaction leaves the result registers, or it is CLEAR in an idle core (44_control_commands.md R145). -/
theorem HostEffect.results {s t : State} (he : HostEffect s t) :
    resultRegisters t = resultRegisters s ∨ (s.busy = false ∧ t = Machine.clear s) := by
  cases he with
  | clear idle => exact .inr ⟨idle, rfl⟩
  | nothing | read _ | ctrl _ | accept _ _ _ _ _ => exact .inl rfl
  | status w | store r w _ | refuse c => exact .inl (by simp [resultRegisters])

/-- What a command in flight holds still beside the result registers: its operands, the flags of the cipher and the hash, and
PEND (R80). -/
def flightRegisters (s : State) :
    Vector Word 4 × Vector Word 4 × Vector Word 16 × Bool × Bool × Bool × Option Pending :=
  (s.key, s.din, s.hin, s.rkv, s.hact, s.hfin, s.pend)

/-- A host transaction while busy leaves operands, flags and PEND (20_memory.md R67, 70_reset_and_hazards.md R174). -/
theorem HostEffect.flightRegisters_of_busy {s t : State} (he : HostEffect s t) (hb : s.busy = true) :
    flightRegisters t = flightRegisters s := by
  cases he with
  | store _ _ idle | clear idle | accept _ idle _ _ _ => simp [hb] at idle
  | nothing | read _ | ctrl _ => rfl
  | status w | refuse c => simp [flightRegisters]

/-- The engine's turn ends the busy time (44_control_commands.md R144). -/
theorem engineStep_idle (s : State) : (engineStep s).busy = false := by
  rcases engineStep_cases s with ⟨hb, he⟩ | ⟨_, he⟩ <;> rw [he]
  · exact hb
  rcases complete_cases s with ⟨_, _, hc⟩ | ⟨_, hc⟩ <;> rw [hc] <;> rfl

/-- Settles O32: the engine's turn and a reset end the flight, so the step is a host transaction. -/
theorem nothingMovesUnderACommand : Obligations.NothingMovesUnderACommand := by
  intro s t hb hstep hbt
  obtain ⟨u, hu, heffect⟩ := step_effect s
  obtain rfl : u = t := Host.Outcome.next.inj (hu.symm.trans hstep)
  rcases heffect with ⟨_, es, n, _, he⟩ | ⟨es, _, rfl⟩ | ⟨_, es, w, _, rfl⟩
  · have hflight := he.flightRegisters_of_busy hb
    rcases he.results with hresults | ⟨hidle, _⟩
    · simp only [flightRegisters, resultRegisters, Prod.mk.injEq] at hflight hresults
      obtain ⟨hkey, hdin, hhin, hrkv, hhact, hhfin, hpend⟩ := hflight
      obtain ⟨hdout, hrk, hv, hhlen⟩ := hresults
      exact ⟨hkey, hdin, hhin, hdout, hrk, hv, hhlen, hrkv, hhact, hhfin, hpend⟩
    · simp [hb] at hidle
  · simp [engineStep_idle] at hbt
  · exact Bool.noConfusion hbt

/-- A scheduled transaction has one of its primitive effects, on the state with the step taken off the schedule. -/
theorem step_host_effect {s t : State} {tr : Transaction} {es : List Event} (hin : s.inputs = .host tr :: es)
    (hstep : step s = .next t) : ∃ n, HostEffect { s with inputs := es, freeCount := n } t := by
  obtain ⟨n, u, hu, he⟩ := transact_effect tr { s with inputs := es }
  obtain rfl : u = t := Host.Outcome.next.inj (hu.symm.trans ((step_of_inputs hin).symm.trans hstep))
  exact ⟨n, he⟩

/-- Settles O33: CLEAR is the one transaction that reaches the results, and it keeps the count of free values. -/
theorem transactionsLeaveResultsButForClear : Obligations.TransactionsLeaveResultsButForClear := by
  intro s t tr es hin hstep
  obtain ⟨n, he⟩ := step_host_effect hin hstep
  rcases he.results with hresults | ⟨hidle, rfl⟩
  · simp only [resultRegisters, Prod.mk.injEq] at hresults
    exact .inl hresults
  · exact .inr ⟨hidle, congrArg _ (immediately_idle clear hidle)⟩

end Sys2Proof.Machine
end

section
/-! SUPPORT. Proofs about command words: the fields and the word undo each other, the decoder is the inverse of the encoder,
and a word that is no command has the error of its fields (30_encoding.md R84 to R97). -/

namespace Sys2Proof

/-! ### Fields and words -/

/-- The fields of a word make it up again (30_encoding.md R84). -/
theorem toWord_fieldsOf (w : Word) : (fieldsOf w).toWord = w := by
  apply BitVec.eq_of_getLsbD_eq
  intro i hi
  simp only [CmdFields.toWord, fieldsOf, BitVec.getLsbD_append, BitVec.getLsbD_extractLsb']
  interval_cases i <;> simp

/-- The fields of a word are those it was made of. -/
theorem fieldsOf_toWord (f : CmdFields) : fieldsOf f.toWord = f := by
  rcases f with ⟨op, rsv0, rlen, rsv1⟩
  simp only [fieldsOf, CmdFields.toWord, CmdFields.mk.injEq]
  refine ⟨?_, ?_, ?_, ?_⟩ <;>
  · apply BitVec.eq_of_getLsbD_eq
    intro i hi
    simp only [BitVec.getLsbD_append, BitVec.getLsbD_extractLsb']
    interval_cases i <;> simp

theorem fieldsOf_eq_iff (w : Word) (f : CmdFields) : fieldsOf w = f ↔ w = f.toWord :=
  ⟨fun h => h ▸ (toWord_fieldsOf w).symm, fun h => h ▸ fieldsOf_toWord f⟩

theorem op_toNat (w : Word) : (fieldsOf w).op.toNat = w.toNat % 16 := by
  simp [fieldsOf, BitVec.extractLsb'_toNat]

theorem rsv0_toNat (w : Word) : (fieldsOf w).rsv0.toNat = w.toNat / 16 % 16 := by
  simp [fieldsOf, BitVec.extractLsb'_toNat, Nat.shiftRight_eq_div_pow]

theorem rlen_toNat (w : Word) : (fieldsOf w).rlen.toNat = w.toNat / 256 % 64 := by
  simp [fieldsOf, BitVec.extractLsb'_toNat, Nat.shiftRight_eq_div_pow]

theorem rsv1_toNat (w : Word) : (fieldsOf w).rsv1.toNat = w.toNat / 2 ^ 14 := by
  have hw := w.isLt
  simp only [fieldsOf, BitVec.extractLsb'_toNat, Nat.shiftRight_eq_div_pow]
  omega

/-- The fields other than OP are as R89 wants them, said of the word as a number. -/
theorem reservedFields_iff (w : Word) :
    ((fieldsOf w).rsv0Zero && (fieldsOf w).rsv1Zero && (fieldsOf w).rlenAllowed) = true ↔
      w.toNat / 16 % 16 = 0 ∧ w.toNat / 2 ^ 14 = 0 ∧ (w.toNat / 256 % 64 = 0 ∨ w.toNat % 16 = 6) := by
  simp only [CmdFields.rsv0Zero, CmdFields.rsv1Zero, CmdFields.rlenAllowed, Bool.and_eq_true, Bool.or_eq_true, beq_iff_eq,
    ← BitVec.toNat_inj, op_toNat, rsv0_toNat, rlen_toNat, rsv1_toNat]
  tauto

/-! ### The opcode map and the decoder -/

/-- The opcode map gives no command exactly for the opcodes 0x8 to 0xF (R87, R90). -/
theorem instrOf_eq_none_iff (op : BitVec 4) (rlen : BitVec 6) : instrOf op rlen = none ↔ 8 ≤ op.toNat := by
  unfold instrOf
  split
  case h_9 => simp only [imp_false, true_iff] at *; omega
  all_goals simp only [reduceCtorEq, false_iff]; omega

/-- An assigned opcode and an RLEN legal for it are those of the one command they select (R85, R87). -/
theorem instrOf_eq_some_iff (op : BitVec 4) (rlen : BitVec 6) (i : Instr) :
    (instrOf op rlen = some i ∧ (op = 6 ∨ rlen = 0)) ↔ op = i.opcode ∧ rlen = i.rlen := by
  constructor
  · rintro ⟨hi, hlen⟩
    unfold instrOf at hi
    split at hi <;> cases hi
    case h_7 h => exact ⟨BitVec.eq_of_toNat_eq h, rfl⟩
    all_goals
      rename_i h
      exact ⟨BitVec.eq_of_toNat_eq h, hlen.resolve_left (by rintro rfl; simp at h)⟩
  · rintro ⟨rfl, rfl⟩
    cases i with
    | hfinal r => exact ⟨rfl, .inl rfl⟩
    | _ => exact ⟨rfl, .inr rfl⟩

/-- A reserved opcode is no command, whatever the other fields (R90). -/
theorem decode_of_reserved_opcode {w : Word} (hop : 8 ≤ w.toNat % 16) : decode w = .error .badOp := by
  have unassigned : instrOf (fieldsOf w).op (fieldsOf w).rlen = none :=
    (instrOf_eq_none_iff _ _).mpr (hop.trans_eq (op_toNat w).symm)
  simp only [decode, unassigned]

/-- An assigned opcode selects a command, which the word is if its other fields are legal (R89, R91). -/
theorem decode_of_assigned_opcode {w : Word} (hop : w.toNat % 16 < 8) :
    ∃ i, decode w =
      if w.toNat / 16 % 16 = 0 ∧ w.toNat / 2 ^ 14 = 0 ∧ (w.toNat / 256 % 64 = 0 ∨ w.toNat % 16 = 6) then .ok i
      else .error .badCmd := by
  have assigned : instrOf (fieldsOf w).op (fieldsOf w).rlen ≠ none := by
    rw [Ne, instrOf_eq_none_iff, op_toNat, Nat.not_le]
    exact hop
  obtain ⟨i, hi⟩ := Option.ne_none_iff_exists'.mp assigned
  exact ⟨i, by simp only [decode, hi, reservedFields_iff]⟩

/-- A reserved field that is not 0, or an RLEN on another opcode than HFINAL's, makes an assigned opcode no command (R91). -/
theorem decode_of_reserved_fields {w : Word} (hop : w.toNat % 16 < 8)
    (h : w.toNat / 16 % 16 ≠ 0 ∨ w.toNat / 2 ^ 14 ≠ 0 ∨ (w.toNat % 16 ≠ 6 ∧ w.toNat / 256 % 64 ≠ 0)) :
    decode w = .error .badCmd := by
  obtain ⟨i, hi⟩ := decode_of_assigned_opcode hop
  rw [hi, if_neg (by tauto)]

/-- A word decodes to a command exactly when its fields are the command's (R84, R89). -/
theorem decode_eq_ok_iff (w : Word) (i : Instr) : decode w = .ok i ↔ fieldsOf w = i.fields := by
  have fields_iff : fieldsOf w = i.fields ↔
      ((fieldsOf w).op = i.opcode ∧ (fieldsOf w).rlen = i.rlen) ∧ (fieldsOf w).rsv0 = 0 ∧ (fieldsOf w).rsv1 = 0 := by
    rcases fieldsOf w with ⟨op, rsv0, rlen, rsv1⟩
    simp only [Instr.fields, CmdFields.mk.injEq]
    tauto
  rw [fields_iff, ← instrOf_eq_some_iff]
  cases hi : instrOf (fieldsOf w).op (fieldsOf w).rlen with
  | none => simp [decode, hi]
  | some j =>
    simp only [decode, hi, CmdFields.rsv0Zero, CmdFields.rsv1Zero, CmdFields.rlenAllowed, Bool.and_eq_true,
      Bool.or_eq_true, beq_iff_eq, ite_eq_iff, Except.ok.injEq, Option.some.injEq, reduceCtorEq, and_false, or_false]
    tauto

/-- Settles O3: the decoder compares fields, and fields and words undo each other. -/
theorem decodeAndEncodeAgree : Obligations.DecodeAndEncodeAgree :=
  fun w i => (decode_eq_ok_iff w i).trans (fieldsOf_eq_iff w i.fields)

theorem decode_encode (i : Instr) : decode (encode i) = .ok i := (decodeAndEncodeAgree _ i).mpr rfl

theorem encode_injective : Function.Injective encode := fun i j h =>
  Except.ok.inj ((decode_encode i).symm.trans (h ▸ decode_encode j))

/-- A word's opcode is that of the command it decodes to. -/
theorem opcode_of_decode {w : Word} {i : Instr} (h : decode w = .ok i) : i.opcode.toNat = w.toNat % 16 := by
  rw [← op_toNat, (decode_eq_ok_iff w i).mp h]; rfl

/-- A word's RLEN is that of the command it decodes to. -/
theorem rlen_of_decode {w : Word} {i : Instr} (h : decode w = .ok i) : i.rlen.toNat = w.toNat / 256 % 64 := by
  rw [← rlen_toNat, (decode_eq_ok_iff w i).mp h]; rfl

/-- Settles O1: the words are computed; the RLEN of HFINAL lies in bits 13:8. -/
theorem commandWordsAreThoseOfTheTable : Obligations.CommandWordsAreThoseOfTheTable := by
  refine ⟨rfl, rfl, rfl, rfl, rfl, rfl, rfl, fun r => ?_⟩
  apply BitVec.eq_of_getLsbD_eq
  intro i hi
  simp only [encode, Instr.fields, Instr.opcode, Instr.rlen, CmdFields.toWord, BitVec.getLsbD_append, BitVec.getLsbD_or,
    BitVec.getLsbD_shiftLeft, BitVec.getLsbD_setWidth]
  interval_cases i <;> simp

/-- Settles O2: the commands' words are their encodings, and the others have the fields of R90 and R91. -/
theorem sampleWordsDecode : Obligations.SampleWordsDecode := by
  have command {w : Word} {i : Instr} (h : w = encode i) := (decodeAndEncodeAgree w i).mpr h
  exact ⟨command rfl, command rfl, command rfl, command rfl, command rfl, command rfl,
    decode_of_reserved_opcode (by decide), decode_of_reserved_fields (by decide) (by decide),
    decode_of_reserved_fields (by decide) (by decide), decode_of_reserved_fields (by decide) (by decide)⟩

/-! ### The legal words -/

/-- A word is a command exactly when its fields are legal (R89). -/
theorem decodes_iff (w : Word) : (∃ i, decode w = .ok i) ↔
    w.toNat % 16 ≤ 7 ∧ w.toNat / 16 % 16 = 0 ∧ w.toNat / 2 ^ 14 = 0 ∧
      (w.toNat / 256 % 64 = 0 ∨ w.toNat % 16 = 6) := by
  rcases Nat.lt_or_ge (w.toNat % 16) 8 with hop | hop
  · obtain ⟨i, hi⟩ := decode_of_assigned_opcode hop
    rw [hi, and_iff_right (Nat.le_of_lt_succ hop)]
    split_ifs with h
    · exact iff_of_true ⟨i, rfl⟩ h
    · exact iff_of_false (fun ⟨_, hj⟩ => nomatch hj) h
  · simp [decode_of_reserved_opcode hop, Nat.not_le.mpr hop]

/-- The commands of every opcode but HFINAL's (R87). -/
def plainCommands : List Instr := [.nop, .keyexp, .enc, .dec, .hinit, .hupdate, .clear]

/-- HFINAL r for every r. -/
def finalCommands : List Instr := (List.finRange 64).map fun r => .hfinal ⟨r⟩

theorem mem_plainCommands_iff (i : Instr) : i ∈ plainCommands ↔ i.opcode.toNat ≠ 6 := by
  cases i <;> simp [plainCommands, Instr.opcode]

theorem mem_finalCommands_iff (i : Instr) : i ∈ finalCommands ↔ i.opcode.toNat = 6 := by
  cases i with
  | hfinal r => simp [finalCommands, Instr.opcode]
  | _ => simp [finalCommands, Instr.opcode]

/-- The words of a list of commands that an opcode test `P` picks out. -/
theorem mem_map_encode_iff {cs : List Instr} {P : Nat → Prop} (hcs : ∀ i, i ∈ cs ↔ P i.opcode.toNat) (w : Word) :
    w ∈ cs.map encode ↔ (∃ i, decode w = .ok i) ∧ P (w.toNat % 16) := by
  simp only [List.mem_map, hcs, eq_comm (b := w), ← decodeAndEncodeAgree w]
  constructor
  · rintro ⟨i, hP, hi⟩
    exact ⟨⟨i, hi⟩, opcode_of_decode hi ▸ hP⟩
  · rintro ⟨⟨i, hi⟩, hP⟩
    exact ⟨i, opcode_of_decode hi ▸ hP, hi⟩

/-- Settles O4: the legal words are the encodings of the seven plain commands and of HFINAL r for the 64 values of r. -/
theorem legalWordsAreSeventyOne : Obligations.LegalWordsAreSeventyOne := by
  refine ⟨decodes_iff, plainCommands.map encode, finalCommands.map encode, ?_, rfl, ?_, ?_,
    mem_map_encode_iff (P := (· ≠ 6)) mem_plainCommands_iff, mem_map_encode_iff (P := (· = 6)) mem_finalCommands_iff⟩
  · exact List.Nodup.map encode_injective (by decide)
  · refine .map encode_injective (.map (fun r q h => ?_) (List.nodup_finRange 64))
    exact congrArg BitVec.toFin (Instr.hfinal.inj h)
  · simp [finalCommands]

/-! ### The opcode table -/

/-- A mnemonic other than HFINAL's is that of one command (R87). -/
theorem eq_of_mnemonic_eq {i j : Instr} (hi : i ∈ plainCommands) (hname : i.mnemonic = j.mnemonic) : i = j := by
  cases j with
  | hfinal r =>
    have other : ∀ i ∈ plainCommands, i.mnemonic ≠ "HFINAL" := by decide
    exact absurd hname (other i hi)
  | _ => revert i; decide

/-- The AND of two words, field by field. -/
theorem toWord_and (f g : CmdFields) :
    f.toWord &&& g.toWord = CmdFields.toWord ⟨f.op &&& g.op, f.rsv0 &&& g.rsv0, f.rlen &&& g.rlen, f.rsv1 &&& g.rsv1⟩ := by
  have and_append {m n : Nat} (x y : BitVec m) (u v : BitVec n) :
      (x ++ u) &&& (y ++ v) = (x &&& y) ++ (u &&& v) := BitVec.and_append
  exact (and_append _ _ _ _).trans (by rw [and_append, and_append]; rfl)

/-- The mask of the HFINAL row keeps OP and the reserved fields, and drops RLEN (R85). -/
theorem and_hfinalMask_eq_iff (w : Word) : w &&& 0xFFFFC0FF = 0x00000006 ↔ ∃ r, w = encode (.hfinal r) := by
  have masked (f : CmdFields) :
      f.toWord &&& 0xFFFFC0FF = 0x00000006 ↔ ∃ r, f = (Instr.hfinal r).fields := by
    rcases f with ⟨op, rsv0, rlen, rsv1⟩
    calc _ ↔ (CmdFields.toWord ⟨op, rsv0, rlen, rsv1⟩ &&& CmdFields.toWord ⟨.allOnes 4, .allOnes 4, 0, .allOnes 18⟩) =
            CmdFields.toWord ⟨6, 0, 0, 0⟩ := Iff.rfl
      _ ↔ op = 6 ∧ rsv0 = 0 ∧ rsv1 = 0 := by
        rw [toWord_and, ← fieldsOf_eq_iff, fieldsOf_toWord]
        simp only [CmdFields.mk.injEq, BitVec.and_allOnes, BitVec.ofNat_eq_ofNat, BitVec.and_zero, true_and]
      _ ↔ _ := by simp [Instr.fields, Instr.opcode, Instr.rlen]
  rw [← toWord_fieldsOf w, masked]
  simp only [encode, ← fieldsOf_eq_iff, fieldsOf_toWord]

/-- The row of a whole-word mask holds the one word of its command (R87). -/
theorem matchesWord_of_plain {i : Instr} (hi : i ∈ plainCommands) (w : Word) :
    OpcodeRow.matchesWord ⟨i.mnemonic, 0xFFFFFFFF, encode i⟩ w = true ↔ ∃ j, w = encode j ∧ i.mnemonic = j.mnemonic := by
  have whole : w &&& 0xFFFFFFFF = w := BitVec.and_allOnes
  rw [OpcodeRow.matchesWord, beq_iff_eq, whole]
  constructor
  · exact fun hw => ⟨i, hw, rfl⟩
  · rintro ⟨j, hw, hname⟩
    rw [hw, eq_of_mnemonic_eq hi hname]

/-- The HFINAL row holds the words of HFINAL r for every r (R85, R87). -/
theorem matchesWord_hfinal (w : Word) :
    OpcodeRow.matchesWord ⟨"HFINAL", 0xFFFFC0FF, 0x00000006⟩ w = true ↔ ∃ i, w = encode i ∧ "HFINAL" = i.mnemonic := by
  rw [OpcodeRow.matchesWord, beq_iff_eq, and_hfinalMask_eq_iff]
  constructor
  · rintro ⟨r, hw⟩
    exact ⟨.hfinal r, hw, rfl⟩
  · rintro ⟨i, hw, hname⟩
    cases i with
    | hfinal r => exact ⟨r, hw⟩
    | _ => simp [Instr.mnemonic] at hname

/-- A row of the table holds the words of the commands of its mnemonic, and no others. -/
theorem matchesWord_iff (w : Word) :
    ∀ row ∈ opcodeTable, (row.matchesWord w = true ↔ ∃ i, w = encode i ∧ row.mnemonic = i.mnemonic) := by
  have plain {i : Instr} (hi : i ∈ plainCommands) := matchesWord_of_plain hi w
  simp only [opcodeTable, List.forall_mem_cons]
  exact ⟨plain (i := .nop) (by decide), plain (i := .keyexp) (by decide), plain (i := .enc) (by decide),
    plain (i := .dec) (by decide), plain (i := .hinit) (by decide), plain (i := .hupdate) (by decide),
    matchesWord_hfinal w, plain (i := .clear) (by decide), fun _ h => nomatch h⟩

/-- Settles O5: a row matches the encodings of its mnemonic's commands, and a word is the encoding of one command. -/
theorem tableRowsPickOutTheCommands : Obligations.TableRowsPickOutTheCommands := by
  constructor
  · rintro w ⟨row, hrow, hmatch⟩
    obtain ⟨i, rfl, _⟩ := (matchesWord_iff w row hrow).mp hmatch
    exact ⟨i, decode_encode i⟩
  · intro w i hi row hrow
    obtain rfl := (decodeAndEncodeAgree w i).mp hi
    rw [matchesWord_iff _ row hrow]
    constructor
    · rintro ⟨j, hj, hname⟩
      rw [encode_injective hj, hname]
    · exact fun hname => ⟨i, rfl, hname⟩

end Sys2Proof
end

section
/-! SUPPORT. Proofs about the CMD write: what each word does at it, check by check, and what an accepted command's completion
gives (30_encoding.md R90, R91, R94; 44_control_commands.md R144). -/

namespace Sys2Proof.Machine

open Sys2Proof

/-! ### Acceptance and completion -/

theorem issue_accepted (p : Pending) {s : State} (hb : s.busy = false) : issue none p s = accept p s := by
  simp [issue, hb]

theorem keyCheck_with_keys {s : State} (hk : s.rkv = true) : keyCheck s = none := by simp [keyCheck, hk]

theorem hashCheck_with_hash {s : State} (hh : s.hact = true) : hashCheck s = none := by simp [hashCheck, hh]

/-- In an idle core KEYEXP and HINIT are accepted (R94). -/
theorem exec_accepts_unchecked {s : State} (hb : s.busy = false) :
    exec .keyexp s = .next (accept ⟨.keyexp, 0⟩ s) ∧ exec .hinit s = .next (accept ⟨.hinit, 0⟩ s) :=
  ⟨congrArg _ (issue_accepted _ hb), congrArg _ (issue_accepted _ hb)⟩

/-- In an idle core with round keys ENC and DEC are accepted (R94). -/
theorem exec_accepts_cipher {s : State} (hb : s.busy = false) (hk : s.rkv = true) :
    exec .enc s = .next (accept ⟨.enc, 0⟩ s) ∧ exec .dec s = .next (accept ⟨.dec, 0⟩ s) := by
  have accepted (p : Pending) : issue (keyCheck s) p s = accept p s := by
    rw [keyCheck_with_keys hk, issue_accepted p hb]
  exact ⟨congrArg _ (accepted _), congrArg _ (accepted _)⟩

/-- In an idle core with an active hash HUPDATE and HFINAL r are accepted (R94). -/
theorem exec_accepts_hash {s : State} (r : BitVec 6) (hb : s.busy = false) (hh : s.hact = true) :
    exec .hupdate s = .next (accept ⟨.hupdate, 0⟩ s) ∧ exec (.hfinal r) s = .next (accept ⟨.hfinal, r⟩ s) := by
  have accepted (p : Pending) : issue (hashCheck s) p s = accept p s := by
    rw [hashCheck_with_hash hh, issue_accepted p hb]
  exact ⟨congrArg _ (accepted _), congrArg _ (accepted _)⟩

/-- The engine's step on an accepted command is the command's completion (44_control_commands.md R144). -/
theorem step_engine_accept (p : Pending) (s : State) (es : List Event) :
    step { accept p s with inputs := .engine :: es } =
      .next (finish (completionBody p (accept p { s with inputs := es }))) :=
  calc step { accept p s with inputs := .engine :: es }
    _ = takeEvent .engine (accept p { s with inputs := es }) := step_of_inputs rfl
    _ = .next (finish (completionBody p (accept p { s with inputs := es }))) := rfl

/-- Settles O13: the body of KEYEXP on the accepted state. -/
theorem keyexpCompletes : Obligations.KeyexpCompletes :=
  fun s hb => ⟨_, (exec_accepts_unchecked hb).1, rfl, step_engine_accept ⟨.keyexp, 0⟩ s⟩

/-- Settles O14: the body of ENC on the accepted state. -/
theorem encCompletes : Obligations.EncCompletes :=
  fun s hb hk => ⟨_, (exec_accepts_cipher hb hk).1, rfl, step_engine_accept ⟨.enc, 0⟩ s⟩

/-- Settles O15: the body of DEC on the accepted state. -/
theorem decCompletes : Obligations.DecCompletes :=
  fun s hb hk => ⟨_, (exec_accepts_cipher hb hk).2, rfl, step_engine_accept ⟨.dec, 0⟩ s⟩

/-- Settles O16: the body of HINIT on the accepted state. -/
theorem hinitCompletes : Obligations.HinitCompletes :=
  fun s hb => ⟨_, (exec_accepts_unchecked hb).2, rfl, step_engine_accept ⟨.hinit, 0⟩ s⟩

/-- Settles O17: the body of HUPDATE on the accepted state. -/
theorem hupdateCompletes : Obligations.HupdateCompletes :=
  fun s hb hh => ⟨_, (exec_accepts_hash 0 hb hh).1, rfl, step_engine_accept ⟨.hupdate, 0⟩ s⟩

/-- Settles O18: the body of HFINAL on the accepted state, with the captured r. -/
theorem hfinalCompletes : Obligations.HfinalCompletes :=
  fun s r hb hh => ⟨_, (exec_accepts_hash r hb hh).2, rfl, step_engine_accept ⟨.hfinal, r⟩ s⟩

/-! ### The checks of a CMD write -/

/-- A word written to CMD runs the checks of R94. -/
theorem memWrite_cmd (w : Word) (s : State) : memWrite 0x010 w s = commandWrite w s := by
  rw [memWrite, show regAt 0x010 = .cmd from regAt_offset .cmd]; rfl

/-- While busy the first check fires (R94). -/
theorem memWrite_cmd_busy (w : Word) {s : State} (hb : s.busy = true) : memWrite 0x010 w s = .next (recorded 1 s) := by
  rw [memWrite_cmd, commandWrite, if_pos hb, raiseError_eq_recorded]; rfl

/-- An idle core records the error of a word that is no command. -/
theorem memWrite_cmd_error {w : Word} {e : DecodeError} {s : State} (hb : s.busy = false) (hw : decode w = .error e) :
    memWrite 0x010 w s = .next (recorded (errCodeValue (decodeErrCode e)) s) := by
  rw [memWrite_cmd, commandWrite, hb, hw, ← raiseError_eq_recorded]; rfl

/-- Settles O8: a reserved opcode does not decode, whatever the other fields. -/
theorem reservedOpcodesRaiseBadOp : Obligations.ReservedOpcodesRaiseBadOp :=
  fun _ _ hb hop => memWrite_cmd_error hb (decode_of_reserved_opcode hop)

/-- Settles O9: an assigned opcode with a field that must be 0 and is not does not decode. -/
theorem reservedFieldsRaiseBadCmd : Obligations.ReservedFieldsRaiseBadCmd :=
  fun _ _ hb hop hfields => memWrite_cmd_error hb (decode_of_reserved_fields hop hfields)

/-- The checks of R94 that follow decoding, in an idle core: what each command does at its write by its opcode. -/
theorem exec_follows_checks (i : Instr) {s : State} (hb : s.busy = false) :
    let op := i.opcode.toNat
    if op = 0 then exec i s = .next s
    else if op = 7 then exec i s = .next (clear s)
    else if (op = 2 ∨ op = 3) ∧ s.rkv = false then exec i s = .next (recorded 4 s)
    else if (op = 5 ∨ op = 6) ∧ s.hact = false then exec i s = .next (recorded 5 s)
    else ∃ p : Pending, (flightOpCode p.op).toNat = op ∧ p.rlen.toNat = i.rlen.toNat ∧ exec i s = .next (accept p s) := by
  cases i with
  | nop => exact congrArg _ (immediately_idle _ hb)
  | clear => exact congrArg _ (immediately_idle _ hb)
  | keyexp => exact ⟨⟨.keyexp, 0⟩, rfl, rfl, (exec_accepts_unchecked hb).1⟩
  | hinit => exact ⟨⟨.hinit, 0⟩, rfl, rfl, (exec_accepts_unchecked hb).2⟩
  | enc =>
    cases hk : s.rkv
    · simpa [Instr.opcode] using (cipherCommandsNeedRoundKeys s hb hk).1
    · simpa [Instr.opcode] using ⟨⟨.enc, 0⟩, rfl, rfl, (exec_accepts_cipher hb hk).1⟩
  | dec =>
    cases hk : s.rkv
    · simpa [Instr.opcode] using (cipherCommandsNeedRoundKeys s hb hk).2
    · simpa [Instr.opcode] using ⟨⟨.dec, 0⟩, rfl, rfl, (exec_accepts_cipher hb hk).2⟩
  | hupdate =>
    cases hh : s.hact
    · simpa [Instr.opcode] using (hashCommandsNeedAnActiveHash s 0 hb hh).1
    · simpa [Instr.opcode] using ⟨⟨.hupdate, 0⟩, rfl, rfl, (exec_accepts_hash 0 hb hh).1⟩
  | hfinal r =>
    cases hh : s.hact
    · simpa [Instr.opcode] using (hashCommandsNeedAnActiveHash s r hb hh).2
    · simpa [Instr.opcode] using ⟨⟨.hfinal, r⟩, rfl, rfl, (exec_accepts_hash r hb hh).2⟩

/-- Settles O7: the words that are no commands by O8 and O9; the others decode, and what their command does is the end of the
chain for its opcode. -/
theorem commandWriteFollowsItsChecks : Obligations.CommandWriteFollowsItsChecks := by
  intro s w op rlen
  by_cases hb : s.busy = true
  · rw [if_pos hb]
    exact memWrite_cmd_busy w hb
  rw [if_neg hb]
  rw [Bool.not_eq_true] at hb
  by_cases hop : 8 ≤ op
  · rw [if_pos hop]
    exact reservedOpcodesRaiseBadOp s w hb hop
  rw [if_neg hop]
  rw [Nat.not_le] at hop
  by_cases hfields : w.toNat / 16 % 16 ≠ 0 ∨ w.toNat / 2 ^ 14 ≠ 0 ∨ (op ≠ 6 ∧ rlen ≠ 0)
  · rw [if_pos hfields]
    exact reservedFieldsRaiseBadCmd s w hb hop hfields
  rw [if_neg hfields]
  obtain ⟨i, hi⟩ : ∃ i, decode w = .ok i := (decodes_iff w).mpr ⟨Nat.le_of_lt_succ hop, by tauto⟩
  have hopcode : i.opcode.toNat = op := opcode_of_decode hi
  have hrlen : i.rlen.toNat = rlen := rlen_of_decode hi
  rw [memWrite_cmd, commandWrite_of_decode hi]
  clear_value op rlen
  subst hopcode hrlen
  exact exec_follows_checks i hb

end Sys2Proof.Machine
end

section
/-! SUPPORT. Proofs about the cipher's and the hash's transforms: the S-box has an inverse (40_cipher_transforms.md R101,
R102), and rotation and what is made of it are linear over XOR (R100, R104, R105; 42_hash_compression.md R121, R122). -/

namespace Sys2Proof.Machine

open Sys2Proof

/-! ### The S-box -/

/-- The inverse of the S-box: where a byte first stands in the table of R101. -/
def sboxInverse (y : Byte) : Byte := BitVec.ofNat 8 (sboxRows.flatten.findIdx (·.toNat == y.toNat))

/-- No entry of the table stands in it before its own place (R102 (a)). -/
theorem sboxInverse_sbox : ∀ x : Byte, sboxInverse (sbox x) = x := by decide +kernel

theorem sbox_injective : Function.Injective sbox := Function.LeftInverse.injective sboxInverse_sbox

/-- The bytes are finitely many, so an injective function of them to themselves is onto. -/
theorem sbox_surjective : Function.Surjective sbox := Finite.surjective_of_injective sbox_injective

/-- Settles O44: its two halves, the first by the inverse table and the second by counting. -/
theorem sboxIsAPermutation : Obligations.SboxIsAPermutation :=
  ⟨fun _ _ h => sbox_injective h, sbox_surjective⟩

/-! ### Rotation and the diffusions -/

/-- The rotation of R100 is the library's: the case `rotl(x, 0) = x` it states apart is what the two shifts give for 0. -/
theorem rotl_eq_rotateLeft (x : Word) (n : Nat) : rotl x n = x.rotateLeft n := by
  by_cases hn : n % 32 = 0
  · have shifted_out : x >>> 32 = 0#32 := BitVec.ushiftRight_eq_zero (Nat.le_refl 32)
    simp [rotl, BitVec.rotateLeft_def, hn, shifted_out]
  · simp [rotl, BitVec.rotateLeft_def, hn]

/-- Rotation is linear: bit by bit, both sides read the same bit of `a` and of `b`. -/
theorem rotl_xor (a b : Word) (n : Nat) : rotl (a ^^^ b) n = rotl a n ^^^ rotl b n := by
  refine BitVec.eq_of_getElem_eq fun i hi => ?_
  simp only [rotl_eq_rotateLeft, BitVec.getElem_xor, BitVec.getElem_rotateLeft]
  split <;> rfl

/-- Settles O45: each of L, L', P0 and P1 is an XOR of rotations of its argument, and each of those is linear. -/
theorem diffusionsAreLinear : Obligations.DiffusionsAreLinear := by
  refine fun a b => ⟨rotl_xor a b, ?_, ?_, ?_, ?_⟩
  · simp only [diffuse, rotl_xor]; ac_rfl
  · simp only [diffuseKey, rotl_xor]; ac_rfl
  · simp only [p0, rotl_xor]; ac_rfl
  · simp only [p1, rotl_xor]; ac_rfl

end Sys2Proof.Machine
end

section
/-! SUPPORT. Proofs about the cipher's functions: the 4-word window is a view of the growing sequence of the rules, and its
round is undone step by step (41_cipher_commands.md R110, R111, R115, R116). -/

namespace Sys2Proof.Machine

open Sys2Proof

/-! ### The window and the growing sequence -/

/-- One round of either algorithm, with its transform: T' for the key schedule (R110), T for the round engine (R111). -/
def windowRound (f : Word → Word) (w : Window) (c : Word) : Window :=
  shiftIn w (w.x0 ^^^ f (w.x1 ^^^ w.x2 ^^^ w.x3 ^^^ c))

theorem cipherRound_eq_windowRound : cipherRound = windowRound transform := rfl

/-- The window after `i` rounds, round `i` taking the word `c i`. -/
def windowAfter (f : Word → Word) (w : Window) (c : Nat → Word) : Nat → Window
  | 0 => w
  | i + 1 => windowRound f (windowAfter f w c i) (c i)

/-- Word `i` of the growing sequence: the oldest word of the window after `i` rounds. -/
def growingWord (f : Word → Word) (w : Window) (c : Nat → Word) (i : Nat) : Word := (windowAfter f w c i).x0

/-- The recurrence of R110 and R111. -/
theorem growingWord_add_four (f : Word → Word) (w : Window) (c : Nat → Word) (i : Nat) :
    growingWord f w c (i + 4) = growingWord f w c i ^^^
      f (growingWord f w c (i + 1) ^^^ growingWord f w c (i + 2) ^^^ growingWord f w c (i + 3) ^^^ c i) := rfl

/-- Only four words of the sequence are live (R110, "Window form"). -/
theorem windowAfter_eq_growingWords (f : Word → Word) (w : Window) (c : Nat → Word) (i : Nat) :
    windowAfter f w c i =
      ⟨growingWord f w c i, growingWord f w c (i + 1), growingWord f w c (i + 2), growingWord f w c (i + 3)⟩ := rfl

/-- A window given by an array starts its sequence with the array's words. -/
theorem growingWord_start (f : Word → Word) (c : Nat → Word) (x : Vector Word 4) (i : Fin 4) :
    growingWord f (windowOf x) c i = x[i] := by
  fin_cases i <;> rfl

/-- The rounds of a list of words, one after the other, are those of the sequence. -/
theorem foldl_take_windowRound (f : Word → Word) (w : Window) (cs : List Word) {n : Nat} (hn : n ≤ cs.length) :
    (cs.take n).foldl (windowRound f) w = windowAfter f w (fun i => cs.getD i 0) n := by
  induction n with
  | zero => rfl
  | succ n ih =>
    have hlt : n < cs.length := hn
    rw [List.take_succ_eq_append_getElem hlt, List.foldl_concat, ih hlt.le, ← List.getD_eq_getElem cs 0 hlt, windowAfter]

/-! ### The key schedule -/

/-- The word a key-schedule round gives is computed from the window that the rounds before it leave. -/
theorem keyWords_getElem (w : Window) (cs : List Word) (i : Nat) (hi : i < (keyWords w cs).length) :
    (keyWords w cs)[i] =
      keyRoundWord ((cs.take i).foldl (windowRound transformKey) w) (cs[i]'(keyWords_length w cs ▸ hi)) := by
  induction cs generalizing w i with
  | nil => exact absurd hi (Nat.not_lt_zero i)
  | cons c cs ih =>
    cases i with
    | zero => rfl
    | succ i => exact ih (shiftIn w (keyRoundWord w c)) i (Nat.lt_of_succ_lt_succ hi)

/-- The growing sequence of a key (R110). -/
def keySequence (mk : Vector Word 4) : Nat → Word := growingWord transformKey (keyWindow mk) fun i => ck.getD i 0

theorem keySequence_start (mk : Vector Word 4) (i : Fin 4) : keySequence mk i = mk[i] ^^^ fk[i] := by
  fin_cases i <;> rfl

theorem keySequence_add_four (mk : Vector Word 4) (i : Nat) :
    keySequence mk (i + 4) = keySequence mk i ^^^ transformKey
      (keySequence mk (i + 1) ^^^ keySequence mk (i + 2) ^^^ keySequence mk (i + 3) ^^^ ck.getD i 0) :=
  growingWord_add_four _ _ _ i

/-- The round keys are the sequence from its fifth word on (R110). -/
theorem keySchedule_getElem (mk : Vector Word 4) (i : Fin 32) : (keySchedule mk)[i] = keySequence mk (i + 4) := by
  have hi : i.val < ck.length := i.isLt
  calc (keySchedule mk)[i]
    _ = keyRoundWord ((ck.take i).foldl (windowRound transformKey) (keyWindow mk)) ck[i.val] :=
      keyWords_getElem _ ck i _
    _ = keyRoundWord (windowAfter transformKey (keyWindow mk) (fun n => ck.getD n 0) i) (ck.getD i 0) := by
      rw [foldl_take_windowRound _ _ _ hi.le, List.getD_eq_getElem ck 0 hi]
    _ = keySequence mk (i + 4) := rfl

/-- Settles O46: the words the window loses, one a round. -/
theorem keyScheduleIsTheGrowingSequence : Obligations.KeyScheduleIsTheGrowingSequence :=
  ⟨fun mk => ⟨keySequence mk, keySequence_start mk, fun i _ => keySequence_add_four mk i, keySchedule_getElem mk⟩,
    by decide +kernel⟩

/-- The recurrence read backwards: of two keys, equal words from place `i + 1` to `i + 4` mean equal words at `i` (R116). -/
theorem keySequence_back {a b : Vector Word 4} {i : Nat}
    (h : ∀ j, i < j → j ≤ i + 4 → keySequence a j = keySequence b j) : keySequence a i = keySequence b i := by
  have hlast := h (i + 4) (by omega) le_rfl
  rw [keySequence_add_four, keySequence_add_four, h (i + 1) (by omega) (by omega), h (i + 2) (by omega) (by omega),
    h (i + 3) (by omega) (by omega)] at hlast
  exact (BitVec.xor_left_inj _).mp hlast

/-- Four words of the sequence in a row determine all words before them (R116). -/
theorem keySequence_determined {a b : Vector Word 4} (n : Nat)
    (h : ∀ j, n ≤ j → j < n + 4 → keySequence a j = keySequence b j) :
    ∀ j, j < n + 4 → keySequence a j = keySequence b j := by
  induction n with
  | zero => exact fun j hj => h j (Nat.zero_le j) hj
  | succ n ih =>
    have earlier : ∀ j, n ≤ j → j < n + 4 → keySequence a j = keySequence b j := by
      intro j hj hlt
      rcases hj.eq_or_lt with rfl | hgt
      · exact keySequence_back fun j hj hle => h j hj (by omega)
      · exact h j hgt (by omega)
    intro j hj
    by_cases hlt : j < n + 4
    · exact ih earlier j hlt
    · exact h j (by omega) hj

/-- Settles O50: rk[28..31] are words 32 to 35 of the sequence, which determine words 0 to 3, which are the key XOR FK. -/
theorem keyScheduleIsInjective : Obligations.KeyScheduleIsInjective := by
  intro a b hkeys
  have hlast : ∀ j, 32 ≤ j → j < 32 + 4 → keySequence a j = keySequence b j := by
    intro j hj hlt
    obtain ⟨i, rfl⟩ := Nat.exists_eq_add_of_le' (show 4 ≤ j by omega)
    have hi : i < 32 := by omega
    calc keySequence a (i + 4)
      _ = (keySchedule a)[(⟨i, hi⟩ : Fin 32)] := (keySchedule_getElem a ⟨i, hi⟩).symm
      _ = (keySchedule b)[(⟨i, hi⟩ : Fin 32)] := hkeys ⟨i, hi⟩ (show 28 ≤ i by omega)
      _ = keySequence b (i + 4) := keySchedule_getElem b ⟨i, hi⟩
  refine Vector.ext fun i hi => ?_
  have hstart : keySequence a i = keySequence b i := keySequence_determined 32 hlast i (by omega)
  rw [keySequence_start a ⟨i, hi⟩, keySequence_start b ⟨i, hi⟩] at hstart
  exact (BitVec.xor_left_inj _).mp hstart

/-! ### The round engine -/

/-- Settles O47: the window after 32 rounds is words 32 to 35 of the sequence. -/
theorem roundEngineIsTheGrowingSequence : Obligations.RoundEngineIsTheGrowingSequence := by
  refine ⟨fun x key => ?_, by decide +kernel⟩
  let y := growingWord transform (windowOf x) fun i => key.toList.getD i 0
  have hlength : key.toList.length = 32 := key.length_toList
  have hwindow : key.toList.foldl cipherRound (windowOf x) = ⟨y 32, y 33, y 34, y 35⟩ :=
    calc key.toList.foldl cipherRound (windowOf x)
      _ = (key.toList.take 32).foldl (windowRound transform) (windowOf x) := by
        rw [cipherRound_eq_windowRound, List.take_of_length_le hlength.le]
      _ = windowAfter transform (windowOf x) (fun i => key.toList.getD i 0) 32 :=
        foldl_take_windowRound _ _ _ hlength.ge
      _ = ⟨y 32, y 33, y 34, y 35⟩ := windowAfter_eq_growingWords _ _ _ 32
  refine ⟨y, growingWord_start _ _ x, fun i => ?_, ?_⟩
  · rw [← toList_getD_fin key i]
    exact growingWord_add_four _ _ _ i
  · rw [roundEngine, hwindow]

/-- The window with its words in reverse order, as the round engine gives it out (R111). -/
def Window.reversed (w : Window) : Window := ⟨w.x3, w.x2, w.x1, w.x0⟩

/-- The round engine's output as a window. -/
theorem windowOf_roundEngine (x : Vector Word 4) (keys : List Word) :
    windowOf (roundEngine x keys) = (keys.foldl cipherRound (windowOf x)).reversed := rfl

/-- A round on the reversed window undoes the round with the same key (R115). -/
theorem cipherRound_reversed (w : Window) (k : Word) : cipherRound (cipherRound w k).reversed k = w.reversed := by
  have hmix : w.x3 ^^^ w.x2 ^^^ w.x1 = w.x1 ^^^ w.x2 ^^^ w.x3 := by ac_rfl
  simp [cipherRound, shiftIn, Window.reversed, hmix, BitVec.xor_assoc]

/-- The rounds are undone one by one, the last key first (R115). -/
theorem foldl_cipherRound_reversed (w : Window) (keys : List Word) :
    keys.reverse.foldl cipherRound (keys.foldl cipherRound w).reversed = w.reversed := by
  induction keys generalizing w with
  | nil => rfl
  | cons k keys ih =>
    rw [List.reverse_cons, List.foldl_concat, List.foldl_cons, ih, cipherRound_reversed]

/-- A four-word array is made of its words. -/
theorem vector_of_words (x : Vector Word 4) : #v[x[0], x[1], x[2], x[3]] = x := by
  refine Vector.ext fun i hi => ?_
  interval_cases i <;> rfl

/-- Settles O48: the rounds are undone in reverse, and the second reversal of the output undoes the first. -/
theorem roundEngineIsAnInvolution : Obligations.RoundEngineIsAnInvolution := by
  intro x keys
  rw [roundEngine, windowOf_roundEngine, foldl_cipherRound_reversed]
  exact vector_of_words x

end Sys2Proof.Machine
end

section
/-! SUPPORT. Proofs about host scripts: what the steps of a script do to the core, piece by piece, and the cipher's procedure
(30_encoding.md R96 to R98; 41_cipher_commands.md R112 to R115). -/

namespace Sys2Proof.Machine

open Sys2Proof

/-! ### Runs of a piece of a schedule -/

/-- The agent's step `e` leads the core from `s` to `t`, whatever is scheduled after it. -/
def Leads (e : Event) (s t : State) : Prop :=
  ∀ es, takeEvent e { s with inputs := es } = .next { t with inputs := es }

/-- The steps of a piece of a schedule, in their order, lead the core from `s` to `t`. -/
inductive Runs : List Event → State → State → Prop where
  | nil (s : State) : Runs [] s s
  | cons {e : Event} {es : List Event} {s t u : State} : Leads e s t → Runs es t u → Runs (e :: es) s u

theorem Runs.append {es fs : List Event} {s t u : State} (hes : Runs es s t) (hfs : Runs fs t u) :
    Runs (es ++ fs) s u := by
  induction hes with
  | nil s => exact hfs
  | cons he _ ih => exact .cons he (ih hfs)

/-- What the pieces' steps do is what the machine's run of the schedule gives. -/
theorem Runs.runSchedule {es : List Event} {s t : State} (h : Runs es s t) :
    runSchedule es s = .next { t with inputs := [] } := by
  induction h with
  | nil s => rfl
  | @cons e es s t u he _ ih =>
    have hstep : Sys2Proof.core.step { s with inputs := e :: es } = .next { t with inputs := es } := he es
    simp only [Machine.runSchedule, List.length_cons, Host.Core.run, hstep]
    exact ih

theorem Runs.runScript {p : List Statement} {s t : State} (h : Runs (scriptEvents p) s t) :
    runScript p s = .next { t with inputs := [] } := h.runSchedule

/-! ### The steps of the statements -/

/-- A write to an operand register of an idle core stores the word (20_memory.md R64). -/
theorem leads_store {r : Reg} (hr : r.isOperand = true) (v : Word) {s : State} (hb : s.busy = false) :
    Leads (writeEvent r v) s (storeOperand r v s) := by
  intro es
  calc writeReg (regAt r.offset) v { s with inputs := es }
    _ = writeReg r v { s with inputs := es } := by rw [regAt_offset]
    _ = .next (storeOperand r v { s with inputs := es }) := writeReg_operand hr v hb
    _ = .next { storeOperand r v s with inputs := es } := by cases r <;> rfl

/-- A command word written to CMD is checked and carried out (30_encoding.md R94). -/
theorem leads_command {i : Instr} {s t : State}
    (h : ∀ es, exec i { s with inputs := es } = .next { t with inputs := es }) : Leads (commandEvent (encode i)) s t :=
  fun es => (memWrite_cmd _ _).trans ((commandWrite_of_decode (decode_encode i) _).trans (h es))

/-- The engine's turn after an acceptance is the command's completion (44_control_commands.md R144). -/
theorem leads_engine (p : Pending) (s : State) : Leads .engine (accept p s) (finish (completionBody p s)) := by
  obtain ⟨op, r⟩ := p
  cases op <;> exact fun _ => rfl

/-- A read of STATUS returns the STATUS word (20_memory.md R63). -/
theorem leads_readStatus (s : State) : Leads (readEvent .status) s { s with lastRead := some (statusWord s) } := by
  intro es
  rw [readEvent, takeEvent, transact, memRead, regAt_offset]
  rfl

/-- The core when the host has awaited the command `p` accepted in `s`: the command is complete, and the word last read is
STATUS as it then is. -/
def awaited (p : Pending) (s : State) : State :=
  let t := finish (completionBody p s)
  { t with lastRead := some (statusWord t) }

/-- A command that is accepted, and `wait` (R97, R98). -/
theorem runs_awaited {i : Instr} {p : Pending} {s : State}
    (h : ∀ es, exec i { s with inputs := es } = .next (accept p { s with inputs := es })) :
    Runs (scriptEvents [.command i, .wait 0]) s (awaited p s) :=
  .cons (leads_command h) (.cons (leads_engine p s) (.cons (leads_readStatus _) (.nil _)))

/-- Four words written one by one replace the whole array. -/
theorem set_words (x y : Vector Word 4) : (((y.set 0 x[0]).set 1 x[1]).set 2 x[2]).set 3 x[3] = x := by
  refine Vector.ext fun i hi => ?_
  interval_cases i <;> simp

/-- Four operand writes to an idle core, one after the other. -/
theorem runs_stores {r : Fin 4 → Reg} (hr : ∀ i, (r i).isOperand = true) (x : Vector Word 4) {s : State}
    (hb : s.busy = false) :
    Runs [writeEvent (r 0) x[0], writeEvent (r 1) x[1], writeEvent (r 2) x[2], writeEvent (r 3) x[3]] s
      (storeOperand (r 3) x[3] (storeOperand (r 2) x[2] (storeOperand (r 1) x[1] (storeOperand (r 0) x[0] s)))) :=
  .cons (leads_store (hr 0) _ hb) <| .cons (leads_store (hr 1) _ (by simp [hb])) <|
    .cons (leads_store (hr 2) _ (by simp [hb])) <| .cons (leads_store (hr 3) _ (by simp [hb])) (.nil _)

/-- The writes of `ldkey` in an idle core (R98). -/
theorem runs_ldkey (x : Vector Word 4) {s : State} (hb : s.busy = false) :
    Runs (statementEvents (.ldkey x[0] x[1] x[2] x[3])) s { s with key := x } := by
  have stored : Runs (statementEvents (.ldkey x[0] x[1] x[2] x[3])) s
      { s with key := (((s.key.set 0 x[0]).set 1 x[1]).set 2 x[2]).set 3 x[3] } :=
    runs_stores (r := .key) (fun _ => rfl) x hb
  rwa [set_words] at stored

/-- The writes of `ldin` in an idle core (R98). -/
theorem runs_ldin (x : Vector Word 4) {s : State} (hb : s.busy = false) :
    Runs (statementEvents (.ldin x[0] x[1] x[2] x[3])) s { s with din := x } := by
  have stored : Runs (statementEvents (.ldin x[0] x[1] x[2] x[3])) s
      { s with din := (((s.din.set 0 x[0]).set 1 x[1]).set 2 x[2]).set 3 x[3] } :=
    runs_stores (r := .din) (fun _ => rfl) x hb
  rwa [set_words] at stored

/-! ### The cipher's procedure -/

theorem runs_keyexp {s : State} (hb : s.busy = false) :
    Runs (scriptEvents [.command .keyexp, .wait 0]) s (awaited ⟨.keyexp, 0⟩ s) :=
  runs_awaited fun es => (exec_accepts_unchecked (s := { s with inputs := es }) hb).1

theorem runs_enc {s : State} (hb : s.busy = false) (hk : s.rkv = true) :
    Runs (scriptEvents [.command .enc, .wait 0]) s (awaited ⟨.enc, 0⟩ s) :=
  runs_awaited fun es => (exec_accepts_cipher (s := { s with inputs := es }) hb hk).1

theorem runs_dec {s : State} (hb : s.busy = false) (hk : s.rkv = true) :
    Runs (scriptEvents [.command .dec, .wait 0]) s (awaited ⟨.dec, 0⟩ s) :=
  runs_awaited fun es => (exec_accepts_cipher (s := { s with inputs := es }) hb hk).2

/-- KEYEXP of the key `k`, then ENC of the block `p`, in any idle core (R112, R113). -/
theorem runs_encryptScript (k p : Vector Word 4) {s : State} (hb : s.busy = false) :
    Runs (scriptEvents (encryptScript k p)) s
      (awaited ⟨.enc, 0⟩ { awaited ⟨.keyexp, 0⟩ { s with key := k } with din := p }) :=
  have keyed := (runs_ldkey k hb).append (runs_keyexp (s := { s with key := k }) hb)
  have encrypted := (runs_ldin p (s := awaited ⟨.keyexp, 0⟩ { s with key := k }) rfl).append (runs_enc rfl rfl)
  keyed.append encrypted

/-- DEC of the block `x` in an idle core with round keys (R114). -/
theorem runs_decryptScript (x : Vector Word 4) {s : State} (hb : s.busy = false) (hk : s.rkv = true) :
    Runs (scriptEvents (decryptScript x)) s (awaited ⟨.dec, 0⟩ { s with din := x }) :=
  (runs_ldin x hb).append (runs_dec (s := { s with din := x }) hb hk)

/-- Settles O49: the scripts run to their end, and the round engine with the reversed keys undoes it (O48). -/
theorem decryptionUndoesEncryption : Obligations.DecryptionUndoesEncryption := by
  intro s k p hb
  have decrypted : roundEngine (roundEngine p (keysForward (keySchedule k))) (keysReversed (keySchedule k)) = p :=
    roundEngineIsAnInvolution p (keySchedule k).toList
  exact ⟨_, (runs_encryptScript k p hb).runScript, rfl, rfl, _, (runs_decryptScript _ rfl rfl).runScript, decrypted, rfl, rfl⟩

end Sys2Proof.Machine
end

section
/-! SUPPORT. Proofs about the hash's functions: message expansion word by word and compression round by round, each fold of
the model a sequence with the rule's recurrence (42_hash_compression.md R123, R124). -/

namespace Sys2Proof.Machine

open Sys2Proof

/-! ### The words of a byte sequence -/

/-- Where no four bytes stand in front, there are fewer than four. -/
theorem length_lt_four_of_no_word {bs : List Byte} (h : ∀ b0 b1 b2 b3 rest, bs = b0 :: b1 :: b2 :: b3 :: rest → False) :
    bs.length < 4 :=
  match bs, h with
  | [], _ | [_], _ | [_, _], _ | [_, _, _], _ => by simp
  | b0 :: b1 :: b2 :: b3 :: rest, h => (h b0 b1 b2 b3 rest rfl).elim

theorem wordsOfBytes_length (bs : List Byte) : (wordsOfBytes bs).length = bs.length / 4 := by
  induction bs using wordsOfBytes.induct with
  | case1 b0 b1 b2 b3 rest ih => simp only [wordsOfBytes, List.length_cons, ih]; omega
  | case2 bs hshort =>
    have hfew : bs.length < 4 := length_lt_four_of_no_word hshort
    rw [wordsOfBytes, Nat.div_eq_of_lt hfew, List.length_nil]
    exact hshort

/-- Word `i` is made of the four bytes from byte `4 i` on (00_scope.md R11). -/
theorem wordsOfBytes_getD (bs : List Byte) (i : Nat) (hi : 4 * i + 3 < bs.length) :
    (wordsOfBytes bs).getD i 0 =
      word (bs.getD (4 * i) 0) (bs.getD (4 * i + 1) 0) (bs.getD (4 * i + 2) 0) (bs.getD (4 * i + 3) 0) := by
  induction bs using wordsOfBytes.induct generalizing i with
  | case1 b0 b1 b2 b3 rest ih =>
    cases i with
    | zero => rfl
    | succ i => exact ih i (by simp only [List.length_cons] at hi; omega)
  | case2 bs hshort =>
    have hfew : bs.length < 4 := length_lt_four_of_no_word hshort
    omega

/-! ### Message expansion -/

/-- The words at hand after `n` steps of the expansion of the words `w`. -/
def wordsAfter (w : List Word) (n : Nat) : List Word :=
  (List.range n).foldl (fun w k => w ++ [expandWord w (16 + k)]) w

theorem expand_eq_wordsAfter (block : List Byte) : expand block = wordsAfter (wordsOfBytes block) 52 := rfl

theorem wordsAfter_succ (w : List Word) (n : Nat) :
    wordsAfter w (n + 1) = wordsAfter w n ++ [expandWord (wordsAfter w n) (16 + n)] := by
  rw [wordsAfter, List.range_succ, List.foldl_concat, ← wordsAfter]

theorem wordsAfter_length (w : List Word) (n : Nat) : (wordsAfter w n).length = w.length + n := by
  induction n with
  | zero => rfl
  | succ n ih => rw [wordsAfter_succ, List.length_append, ih]; rfl

/-- A word once there stays: the later steps only append. -/
theorem wordsAfter_getD_of_le (w : List Word) {n m i : Nat} (hnm : n ≤ m) (hi : i < w.length + n) :
    (wordsAfter w m).getD i 0 = (wordsAfter w n).getD i 0 := by
  induction m, hnm using Nat.le_induction with
  | base => rfl
  | succ m hm ih =>
    have there : i < (wordsAfter w m).length := by rw [wordsAfter_length]; omega
    rw [wordsAfter_succ, List.getD_append _ _ _ _ there, ih]

/-- Step `n` appends its word at place `16 + n`. -/
theorem wordsAfter_succ_getD {w : List Word} (hw : w.length = 16) (n : Nat) :
    (wordsAfter w (n + 1)).getD (16 + n) 0 = expandWord (wordsAfter w n) (16 + n) := by
  have hlast : (wordsAfter w n).length = 16 + n := by rw [wordsAfter_length, hw]
  rw [wordsAfter_succ, List.getD_append_right _ _ _ _ hlast.le, hlast, Nat.sub_self, List.getD_cons_zero]

/-- Word `i` of the expansion depends on words before place `i` only. -/
theorem expandWord_congr {w u : List Word} {i : Nat} (hi : 0 < i) (h : ∀ j, j < i → w.getD j 0 = u.getD j 0) :
    expandWord w i = expandWord u i := by
  have earlier : ∀ d, 0 < d → w.getD (i - d) 0 = u.getD (i - d) 0 := fun d hd => h _ (Nat.sub_lt hi hd)
  simp only [expandWord, earlier, Nat.zero_lt_succ]

theorem expand_length {block : List Byte} (hlen : block.length = 64) : (expand block).length = 68 := by
  rw [expand_eq_wordsAfter, wordsAfter_length, wordsOfBytes_length, hlen]

/-- The first 16 words are the block's (R123). -/
theorem expand_getD_start {block : List Byte} (hlen : block.length = 64) {i : Nat} (hi : i < 16) :
    (expand block).getD i 0 = (wordsOfBytes block).getD i 0 := by
  have hwords : i < (wordsOfBytes block).length + 0 := by rw [wordsOfBytes_length, hlen]; exact hi
  exact wordsAfter_getD_of_le _ (Nat.zero_le 52) hwords

/-- The recurrence of R123: the words a step read are those of the finished expansion. -/
theorem expand_getD_recurrence {block : List Byte} (hlen : block.length = 64) {i : Nat} (hle : 16 ≤ i) (hlt : i < 68) :
    (expand block).getD i 0 = expandWord (expand block) i := by
  obtain ⟨n, rfl⟩ := Nat.exists_eq_add_of_le hle
  let w := wordsOfBytes block
  have hw : w.length = 16 := by rw [wordsOfBytes_length, hlen]
  calc (wordsAfter w 52).getD (16 + n) 0
    _ = (wordsAfter w (n + 1)).getD (16 + n) 0 := wordsAfter_getD_of_le w (by omega) (by omega)
    _ = expandWord (wordsAfter w n) (16 + n) := wordsAfter_succ_getD hw n
    _ = expandWord (wordsAfter w 52) (16 + n) :=
      expandWord_congr (by omega) fun j hj => (wordsAfter_getD_of_le w (by omega) (by omega)).symm

/-- The recurrence is linear: from zeros it gives zero (R123). -/
theorem expandWord_zeros (n i : Nat) : expandWord (List.replicate n 0) i = 0 := by
  have zero : ∀ j, (List.replicate n (0 : Word)).getD j 0 = 0 := by simp
  simp only [expandWord, zero]
  rfl

theorem wordsAfter_zeros (n : Nat) : wordsAfter (List.replicate 16 0) n = List.replicate (16 + n) 0 := by
  induction n with
  | zero => rfl
  | succ n ih => rw [wordsAfter_succ, ih, expandWord_zeros, ← Nat.add_assoc, List.replicate_succ']

/-- Settles O51: the block's words, the recurrence, the linearity of its terms, and the rule's example by evaluation. -/
theorem expandIsTheRecurrence : Obligations.ExpandIsTheRecurrence := by
  refine ⟨fun block hlen => ⟨expand_length hlen, fun i hi => ?_, fun i => expand_getD_recurrence hlen, fun i _ => rfl⟩,
    wordsAfter_zeros 52, by decide +kernel⟩
  rw [expand_getD_start hlen hi, wordsOfBytes_getD block i (by omega)]

/-! ### Compression -/

/-- The working registers before round `j` of the compression of the words `w` into `v`. -/
def regsBefore (w : List Word) (v : Vector Word 8) (j : Nat) : HashRegs :=
  (List.range j).foldl (hashRound w) (hashRegsOf v)

theorem regsBefore_succ (w : List Word) (v : Vector Word 8) (j : Nat) :
    regsBefore w v (j + 1) = hashRound w (regsBefore w v j) j := by
  rw [regsBefore, List.range_succ, List.foldl_concat, ← regsBefore]

/-- The compression chains the registers after round 63, which are those before round 64 (R124, R126). -/
theorem compress_eq_chain (v : Vector Word 8) (block : List Byte) :
    compress v block = chain v (regsBefore (expand block) v 64) := rfl

/-- Settles O52: the registers before each round are the sequence. -/
theorem compressionIsTheRoundRecurrence : Obligations.CompressionIsTheRoundRecurrence :=
  fun v block => ⟨regsBefore (expand block) v, rfl, fun j _ => regsBefore_succ _ v j, compress_eq_chain v block⟩

end Sys2Proof.Machine
end

section
/-! SUPPORT. Proofs about the hash side of the core: the transitions of the block-feed state machine (43_hash_commands.md R138,
R139), and its independence of the cipher's side (R140). -/

namespace Sys2Proof.Machine

open Sys2Proof

/-! ### The phase of a state -/

/-- With no hash command in flight the phase is one of the three states of rest (R138). -/
theorem restPhase_cases (s : State) : restPhase s = .hIdle ∨ restPhase s = .hAbsorb ∨ restPhase s = .hDone := by
  unfold restPhase
  split
  · exact .inr (.inl rfl)
  split
  · exact .inr (.inr rfl)
  · exact .inl rfl

theorem restPhase_of_active {s : State} (h : s.hact = true) : restPhase s = .hAbsorb := by simp [restPhase, h]

/-- The phase is a function of PEND, HACT and HFIN (R138). -/
theorem hashPhase_congr {s t : State} (hpend : t.pend = s.pend) (hact : t.hact = s.hact) (hfin : t.hfin = s.hfin) :
    hashPhase t = hashPhase s := by
  simp only [hashPhase, restPhase, hpend, hact, hfin]

theorem hashPhase_of_no_command {s : State} (h : s.pend = none) : hashPhase s = restPhase s := by
  simp only [hashPhase, h]

/-- The invariant leaves an idle core no command in flight (10_state.md R49). -/
theorem CoreInv.pend_of_idle {s : State} (h : CoreInv s) (hb : s.busy = false) : s.pend = none :=
  not_not.mp fun hp => Bool.noConfusion (hb.symm.trans (h.busyIffPending.mpr hp))

/-- The invariant gives a busy core its command in flight (R49). -/
theorem CoreInv.pend_of_busy {s : State} (h : CoreInv s) (hb : s.busy = true) : ∃ p, s.pend = some p :=
  Option.ne_none_iff_exists'.mp (h.busyIffPending.mp hb)

/-! ### The transitions -/

/-- A host transaction moves the hash side only by CLEAR or by the acceptance of a command, both in an idle core. -/
theorem HostEffect.hash_cases {s t : State} (he : HostEffect s t) :
    (hashPhase t = hashPhase s ∧ t.v = s.v ∧ t.hlen = s.hlen) ∨ (s.busy = false ∧ t = Machine.clear s) ∨
      ∃ p, s.busy = false ∧ t = Machine.accept p s ∧ ((p.op = .hupdate ∨ p.op = .hfinal) → s.hact = true) := by
  cases he with
  | nothing | read _ | ctrl _ => exact .inl ⟨rfl, rfl, rfl⟩
  | status w => exact .inl ⟨hashPhase_congr (by simp) (by simp) (by simp), by simp, by simp⟩
  | store r w _ => exact .inl ⟨hashPhase_congr (by simp) (by simp) (by simp), by simp, by simp⟩
  | refuse c => exact .inl ⟨hashPhase_congr (by simp) (by simp) (by simp), by simp, by simp⟩
  | clear idle => exact .inr (.inl ⟨idle, rfl⟩)
  | accept p idle hash _ _ => exact .inr (.inr ⟨p, idle, rfl, hash⟩)

/-- The acceptance rows of R139, and a cipher command's acceptance, which stays where the hash side was at rest. -/
theorem accept_hashPhase {s : State} {p : Pending} (hpend : s.pend = none)
    (hash : (p.op = .hupdate ∨ p.op = .hfinal) → s.hact = true) :
    hashPhase (accept p s) = hashPhase s ∨
    ((hashPhase s = .hIdle ∨ hashPhase s = .hAbsorb ∨ hashPhase s = .hDone) ∧ hashPhase (accept p s) = .hInit) ∨
    (hashPhase s = .hAbsorb ∧ hashPhase (accept p s) = .hUpdate) ∨
    (hashPhase s = .hAbsorb ∧ hashPhase (accept p s) = .hFinalBusy) := by
  rw [hashPhase_of_no_command hpend]
  obtain ⟨op, r⟩ := p
  cases op with
  | keyexp | enc | dec => exact .inl rfl
  | hinit => exact .inr (.inl ⟨restPhase_cases s, rfl⟩)
  | hupdate => exact .inr (.inr (.inl ⟨restPhase_of_active (hash (.inl rfl)), rfl⟩))
  | hfinal => exact .inr (.inr (.inr ⟨restPhase_of_active (hash (.inr rfl)), rfl⟩))

/-- In a busy core the engine's turn is the completion of the command in flight (44_control_commands.md R144). -/
theorem engineStep_of_pend {s : State} {p : Pending} (hb : s.busy = true) (hp : s.pend = some p) :
    engineStep s = finish (completionBody p s) := by
  simp only [engineStep, hb, if_true, complete, hp]

/-- The completion rows of R139, and a cipher command's completion, which leaves the hash side at rest where it was. -/
theorem completion_hashPhase {s t : State} {p : Pending} (hp : s.pend = some p)
    (hash : (p.op = .hupdate ∨ p.op = .hfinal) → s.hact = true) (ht : t = finish (completionBody p s)) :
    (hashPhase t = hashPhase s ∧ t.v = s.v ∧ t.hlen = s.hlen) ∨
    (hashPhase s = .hInit ∧ hashPhase t = .hAbsorb ∧ t.v = hashIv ∧ t.hlen = 0 ∧ t.hact = true ∧ t.hfin = false) ∨
    (hashPhase s = .hUpdate ∧ hashPhase t = .hAbsorb ∧ t.v = compress s.v (hinBytes s.hin) ∧ t.hlen = s.hlen + 512) ∨
    (hashPhase s = .hFinalBusy ∧ hashPhase t = .hDone ∧ t.hact = false ∧ t.hfin = true ∧
      ∃ r : BitVec 6, s.pend = some ⟨.hfinal, r⟩ ∧ t.hlen = lengthAfterTail s.hlen r.toNat ∧
        t.v = compressAll s.v (padBlocks (tailBytes r.toNat s.hin) t.hlen)) := by
  subst ht
  obtain ⟨op, r⟩ := p
  cases op with
  | keyexp | enc | dec =>
    have hrest : hashPhase s = restPhase s := by simp only [hashPhase, hp]
    exact .inl ⟨hrest.symm, rfl, rfl⟩
  | hinit =>
    have hphase : hashPhase s = .hInit := by simp only [hashPhase, hp]
    exact .inr (.inl ⟨hphase, rfl, rfl, rfl, rfl, rfl⟩)
  | hupdate =>
    have hphase : hashPhase s = .hUpdate := by simp only [hashPhase, hp]
    exact .inr (.inr (.inl ⟨hphase, restPhase_of_active (hash (.inl rfl)), rfl, rfl⟩))
  | hfinal =>
    have hphase : hashPhase s = .hFinalBusy := by simp only [hashPhase, hp]
    exact .inr (.inr (.inr ⟨hphase, rfl, rfl, rfl, r, hp, rfl, rfl⟩))

/-- Settles O42, agent by agent: the host's CLEAR and acceptances, the engine's completions, and resets. -/
theorem hashPhasesFollowTheTable : Obligations.HashPhasesFollowTheTable := by
  intro s t hs hstep
  obtain ⟨u, hu, heffect⟩ := step_effect s
  obtain rfl : u = t := Host.Outcome.next.inj (hu.symm.trans hstep)
  rcases heffect with ⟨_, es, n, _, he⟩ | ⟨es, _, hturn⟩ | ⟨ig, es, w, hin, rfl⟩
  · rcases he.hash_cases with kept | ⟨hidle, rfl⟩ | ⟨p, hidle, rfl, hash⟩
    · exact .inl kept
    · refine .inr <| .inr <| .inr <| .inr <| .inr <| .inr <| .inr <| .inl ⟨rfl, hidle, ?_⟩
      exact congrArg _ (immediately_idle clear hidle)
    · rcases accept_hashPhase (s := { s with inputs := es, freeCount := n }) (hs.pend_of_idle hidle) hash with
        kept | ⟨hfrom, hto⟩ | ⟨hfrom, hto⟩ | ⟨hfrom, hto⟩
      · exact .inl ⟨kept, rfl, rfl⟩
      · exact .inr <| .inl ⟨hfrom, hidle, hto, rfl⟩
      · exact .inr <| .inr <| .inr <| .inl ⟨hfrom, hidle, hto, rfl⟩
      · exact .inr <| .inr <| .inr <| .inr <| .inr <| .inl ⟨hfrom, hidle, hto, rfl⟩
  · rcases engineStep_cases { s with inputs := es } with ⟨_, he⟩ | ⟨hb, _⟩
    · obtain rfl := hturn.trans he
      exact .inl ⟨rfl, rfl, rfl⟩
    · obtain ⟨p, hp⟩ := hs.pend_of_busy hb
      have hcomplete := hturn.trans (engineStep_of_pend hb hp)
      have completes : u = engineStep { s with inputs := u.inputs } := by
        obtain ⟨_, _, _, _, _, _, _, hinputs, _⟩ := completionBody_frame p { s with inputs := es }
        rw [show u.inputs = es by rw [hcomplete, finish_inputs, hinputs], ← hturn]
      rcases completion_hashPhase (s := { s with inputs := es }) hp (hs.pendingChecked p hp).1 hcomplete with
        kept | ⟨hfrom, hto⟩ | ⟨hfrom, hto⟩ | ⟨hfrom, hto⟩
      · exact .inl kept
      · exact .inr <| .inr <| .inl ⟨hfrom, completes, hto⟩
      · exact .inr <| .inr <| .inr <| .inr <| .inl ⟨hfrom, completes, hto⟩
      · exact .inr <| .inr <| .inr <| .inr <| .inr <| .inr <| .inl ⟨hfrom, completes, hto⟩
  · exact .inr <| .inr <| .inr <| .inr <| .inr <| .inr <| .inr <| .inr ⟨rfl, ig, es, hin⟩

/-! ### The two sides -/

/-- A cipher command's completion writes no hash state, and its effect on the cipher's side reads none (R140). -/
theorem cipher_completion_independent {p : Pending} (hop : p.op = .keyexp ∨ p.op = .enc ∨ p.op = .dec) (s : State) :
    hashSide (finish (completionBody p s)) = hashSide s ∧
    ∀ (hin : Vector Word 16) (v : Vector Word 8) (hlen : BitVec 64) (hact hfin : Bool),
      cipherSide (finish (completionBody p { s with hin := hin, v := v, hlen := hlen, hact := hact, hfin := hfin })) =
        cipherSide (finish (completionBody p s)) := by
  obtain ⟨op, r⟩ := p
  rcases hop with rfl | rfl | rfl <;> exact ⟨rfl, fun _ _ _ _ _ => rfl⟩

/-- A hash command's completion writes no cipher state, and its effect on the hash's side reads none (R140). -/
theorem hash_completion_independent {p : Pending} (hop : p.op = .hinit ∨ p.op = .hupdate ∨ p.op = .hfinal) (s : State) :
    cipherSide (finish (completionBody p s)) = cipherSide s ∧
    ∀ (key din dout : Vector Word 4) (rk : Vector Word 32) (rkv : Bool),
      hashSide (finish (completionBody p { s with key := key, din := din, dout := dout, rk := rk, rkv := rkv })) =
        hashSide (finish (completionBody p s)) := by
  obtain ⟨op, r⟩ := p
  rcases hop with rfl | rfl | rfl <;> exact ⟨rfl, fun _ _ _ _ _ => rfl⟩

/-- Settles O43: with the command in flight the engine's turn is its completion, whatever the other side holds. -/
theorem cipherAndHashAreIndependent : Obligations.CipherAndHashAreIndependent := by
  intro s p hb hp
  rw [engineStep_of_pend hb hp]
  refine ⟨fun hop => ?_, fun hop => ?_⟩
  · obtain ⟨hframe, hreads⟩ := cipher_completion_independent hop s
    refine ⟨hframe, fun hin v hlen hact hfin => ?_⟩
    rw [engineStep_of_pend, hreads]
    exacts [hb, hp]
  · obtain ⟨hframe, hreads⟩ := hash_completion_independent hop s
    refine ⟨hframe, fun key din dout rk rkv => ?_⟩
    rw [engineStep_of_pend, hreads]
    exacts [hb, hp]

end Sys2Proof.Machine
end

section
/-! SUPPORT. Proofs about padding and the tail of a message: the padded blocks byte by byte (43_hash_commands.md R129), and what
of HIN a tail reads (R134, R135). -/

namespace Sys2Proof.Machine

open Sys2Proof

/-! ### The padded blocks, byte by byte -/

/-- Byte `i` of the length field's eight, the most significant first (R129). -/
theorem be64_getD (x : BitVec 64) {i : Nat} (hi : i < 8) : (be64 x).getD i 0 = x.extractLsb' (8 * (7 - i)) 8 := by
  simp [be64, hi]

theorem zeros_getD (n i : Nat) : (List.replicate n (0 : Byte)).getD i 0 = 0 := by
  simp

/-- A tail, the marker and zeros: past the last of the zeros there is nothing, which reads 0 too. -/
theorem marked_getD (tail : List Byte) (n i : Nat) :
    (tail ++ [0x80] ++ List.replicate n 0).getD i 0 =
      if i < tail.length then tail.getD i 0 else if i = tail.length then 0x80 else 0 := by
  rw [List.append_assoc]
  by_cases hi : i < tail.length
  · rw [if_pos hi, List.getD_append _ _ _ _ hi]
  rw [if_neg hi, List.getD_append_right _ _ _ _ (by omega)]
  obtain ⟨j, rfl⟩ := Nat.exists_eq_add_of_le (Nat.le_of_not_lt hi)
  rw [Nat.add_sub_cancel_left]
  cases j with
  | zero => simp
  | succ j => rw [if_neg (by omega)]; exact zeros_getD n j

/-- A block of 56 bytes and the length field, which are its bytes 56 to 63. -/
theorem withLength_getD {front : List Byte} (hfront : front.length = 56) (lbits : BitVec 64) {i : Nat} (hi : i < 64) :
    (front ++ be64 lbits).getD i 0 = if i < 56 then front.getD i 0 else lbits.extractLsb' (8 * (63 - i)) 8 := by
  by_cases h56 : i < 56
  · rw [if_pos h56, List.getD_append _ _ _ _ (by omega)]
  · rw [if_neg h56, List.getD_append_right _ _ _ _ (by omega), hfront, be64_getD _ (by omega),
      show 7 - (i - 56) = 63 - i by omega]

theorem marked_length (tail : List Byte) (n : Nat) :
    (tail ++ [0x80] ++ List.replicate n 0 : List Byte).length = tail.length + 1 + n := by
  simp only [List.length_append, List.length_singleton, List.length_replicate]

theorem withLength_length {front : List Byte} (hfront : front.length = 56) (lbits : BitVec 64) :
    (front ++ be64 lbits).length = 64 := by
  rw [List.length_append, hfront, be64_length]

/-- Settles O53: the marked tail is filled with zeros up to the length field, or to the end of the first block. -/
theorem paddingByteByByte : Obligations.PaddingByteByByte := by
  intro tail lbits hlen
  refine ⟨fun hone => ?_, fun htwo => ?_⟩
  · have hfront := marked_length tail (55 - tail.length)
    rw [show tail.length + 1 + (55 - tail.length) = 56 by omega] at hfront
    refine ⟨_, if_pos hone, withLength_length hfront lbits, fun i hi => ?_⟩
    rw [withLength_getD hfront lbits hi, marked_getD]
    by_cases h56 : i < 56
    · simp only [if_pos h56]
    · rw [if_neg h56, if_neg (by omega), if_neg (by omega), if_neg h56]
  · have hzeros : (List.replicate 56 (0 : Byte)).length = 56 := List.length_replicate
    refine ⟨_, _, if_neg (by omega), ?_, withLength_length hzeros lbits, fun i _ => marked_getD tail _ i, fun i hi => ?_⟩
    · rw [marked_length]; omega
    · rw [withLength_getD hzeros lbits hi, zeros_getD]

/-! ### The bytes of HIN -/

/-- Byte `4k+m` of words written out is byte `m` of word `k` (00_scope.md R11). -/
theorem flatMap_wordBytes_getElem? (ws : List Word) (k : Nat) (m : Fin 4) :
    (ws.flatMap wordBytes)[4 * k + m.val]? = ws[k]?.map fun w => byte w m := by
  induction ws generalizing k with
  | nil => rfl
  | cons w ws ih =>
    cases k with
    | zero => fin_cases m <;> rfl
    | succ k =>
      have hskip : 4 * (k + 1) + m.val - 4 = 4 * k + m.val := by omega
      rw [List.flatMap_cons, List.getElem?_append_right (by rw [wordBytes_length]; omega), wordBytes_length, hskip, ih,
        List.getElem?_cons_succ]

/-- Byte `4k+m` of HIN is byte `m` of its word `k` (10_state.md R24). -/
theorem hinBytes_getElem? (hin : Vector Word 16) (k : Fin 16) (m : Fin 4) :
    (hinBytes hin)[4 * k.val + m.val]? = some (byte hin[k] m) := by
  rw [hinBytes, flatMap_wordBytes_getElem?]
  simp

/-- A tail is what the first r bytes of HIN make it (R134). -/
theorem tailBytes_congr {r : Nat} {a b : Vector Word 16}
    (h : ∀ (k : Fin 16) (m : Fin 4), 4 * k.val + m.val < r → byte a[k] m = byte b[k] m) : tailBytes r a = tailBytes r b := by
  refine List.ext_getElem? fun i => ?_
  simp only [tailBytes, List.getElem?_take]
  by_cases hr : i < r
  · rw [if_pos hr, if_pos hr]
    by_cases h64 : i < 64
    · let k : Fin 16 := ⟨i / 4, by omega⟩
      let m : Fin 4 := ⟨i % 4, by omega⟩
      have hi : i = 4 * k.val + m.val := (Nat.div_add_mod i 4).symm
      rw [hi, hinBytes_getElem?, hinBytes_getElem?, h k m (hi ▸ hr)]
    · rw [List.getElem?_eq_none (by rw [hinBytes_length]; omega), List.getElem?_eq_none (by rw [hinBytes_length]; omega)]
  · rw [if_neg hr, if_neg hr]

/-- Settles O54: the body reads HIN through the tail only, and writes none of it. -/
theorem hfinalIgnoresBytesBeyondTheTail : Obligations.HfinalIgnoresBytesBeyondTheTail := by
  intro s r hin hb hp hagree
  rw [engineStep_of_pend hb hp, engineStep_of_pend (s := { s with hin := hin }) hb hp]
  refine ⟨?_, rfl⟩
  simp only [completionBody, completeHfinal, tailBytes_congr hagree]
  rfl

end Sys2Proof.Machine
end

section
/-! SUPPORT. Proofs about the host's procedure for hashing a message: words carried into HIN, a block absorbed, and the whole
script (30_encoding.md R98; 43_hash_commands.md R131 to R136). -/

namespace Sys2Proof.Machine

open Sys2Proof

/-! ### Bytes carried into HIN -/

/-- The words of a byte sequence hold its bytes when none is left over (00_scope.md R11). -/
theorem flatMap_wordsOfBytes {bs : List Byte} (h : 4 ∣ bs.length) : (wordsOfBytes bs).flatMap wordBytes = bs := by
  induction bs using wordsOfBytes.induct with
  | case1 b0 b1 b2 b3 rest ih =>
    obtain ⟨h0, h1, h2, h3⟩ := bytes_of_word b0 b1 b2 b3
    have hrest : 4 ∣ rest.length := by simp only [List.length_cons] at h; omega
    rw [wordsOfBytes, List.flatMap_cons, ih hrest, wordBytes, h0, h1, h2, h3]
    rfl
  | case2 bs hshort =>
    have hfew : bs.length < 4 := length_lt_four_of_no_word hshort
    have hnone : bs.length = 0 := Nat.eq_zero_of_dvd_of_lt h hfew
    rw [List.length_eq_zero_iff.mp hnone]
    rfl

/-- The writes of the words `ws` to the places `ks` of HIN: afterwards each of these places that has a word holds it, and
so does one that held it before. -/
theorem runs_hinWrites (ws : List Word) (ks : List (Fin 16)) {s : State} (hb : s.busy = false) :
    ∃ hin, Runs (ks.flatMap fun k => (ws[k.val]?).toList.map fun w => writeEvent (.hin k) w) s { s with hin := hin } ∧
      ∀ (k : Fin 16) (w : Word), ws[k.val]? = some w → k ∈ ks ∨ s.hin[k] = w → hin[k] = w := by
  induction ks generalizing s with
  | nil => exact ⟨s.hin, .nil s, fun k w _ hk => hk.resolve_left (by simp)⟩
  | cons j ks ih =>
    cases hj : ws[j.val]? with
    | none =>
      obtain ⟨hin, hruns, hwords⟩ := ih hb
      refine ⟨hin, by simpa [hj] using hruns, fun k w hk hplace => hwords k w hk ?_⟩
      have hne : k ≠ j := by rintro rfl; simp [hj] at hk
      simpa [hne] using hplace
    | some u =>
      obtain ⟨hin, hruns, hwords⟩ := ih (s := { s with hin := s.hin.set j u }) hb
      refine ⟨hin, ?_, fun k w hk hplace => hwords k w hk ?_⟩
      · simpa [hj] using Runs.cons (leads_store (r := .hin j) rfl u hb) hruns
      by_cases hkj : k = j
      · obtain rfl : u = w := Option.some.inj (hj.symm.trans (hkj ▸ hk))
        exact .inr (by simp [hkj])
      · simpa [hkj, Fin.val_ne_of_ne (Ne.symm hkj)] using hplace

/-- `ldblk` of at most 64 bytes, no word of them incomplete, puts them first in HIN (R98). -/
theorem runs_ldblk {bs : List Byte} (hwhole : 4 ∣ bs.length) (hfits : bs.length ≤ 64) {s : State} (hb : s.busy = false) :
    ∃ hin, Runs (statementEvents (.ldblk (wordsOfBytes bs))) s { s with hin := hin } ∧ bs <+: hinBytes hin := by
  obtain ⟨hin, hruns, hwords⟩ := runs_hinWrites (wordsOfBytes bs) (List.finRange 16) hb
  have hlen : (wordsOfBytes bs).length ≤ 16 := by rw [wordsOfBytes_length]; omega
  have hprefix : wordsOfBytes bs <+: hin.toList := by
    refine List.prefix_iff_getElem.mpr ⟨by simpa using hlen, fun i hi => ?_⟩
    have hword := hwords ⟨i, by omega⟩ _ (List.getElem?_eq_getElem hi) (.inl (List.mem_finRange _))
    simpa using hword.symm
  refine ⟨hin, hruns, ?_⟩
  have hbytes := hprefix.flatMap wordBytes
  rwa [flatMap_wordsOfBytes hwhole] at hbytes

/-- The host's filler completes the last word of a tail, and a tail fills no block. -/
theorem filled_length {r : Nat} (hr : r < 64) : 4 ∣ r + (4 - r % 4) % 4 ∧ r + (4 - r % 4) % 4 ≤ 64 := by omega

/-! ### The statements of the procedure -/

/-- The core is idle with a hash in progress that has absorbed the blocks `bs` (R132, R133). -/
structure Absorbed (bs : List (List Byte)) (s : State) : Prop where
  idle : s.busy = false
  active : s.hact = true
  chaining : s.v = compressAll hashIv bs
  length : s.hlen = BitVec.ofNat 64 (512 * bs.length)

theorem runs_hinit {s : State} (hb : s.busy = false) :
    ∃ t, Runs (scriptEvents [.command .hinit, .wait 0]) s t ∧ Absorbed [] t :=
  ⟨awaited ⟨.hinit, 0⟩ s, runs_awaited fun es => (exec_accepts_unchecked (s := { s with inputs := es }) hb).2,
    ⟨rfl, rfl, rfl, rfl⟩⟩

/-- A block written to HIN and HUPDATE absorb the block (R133). -/
theorem Absorbed.runs_hupdate {bs : List (List Byte)} {b : List Byte} {s : State} (h : Absorbed bs s)
    (hblock : b.length = 64) :
    ∃ t, Runs (scriptEvents [.ldblk (wordsOfBytes b), .command .hupdate, .wait 0]) s t ∧ Absorbed (bs ++ [b]) t := by
  obtain ⟨hin, hload, hprefix⟩ := runs_ldblk (bs := b) (by omega) hblock.le h.idle
  have hbytes : hinBytes hin = b := (hprefix.eq_of_length (by rw [hblock, hinBytes_length])).symm
  have hupdate : Runs (scriptEvents [.command .hupdate, .wait 0]) { s with hin := hin }
      (awaited ⟨.hupdate, 0⟩ { s with hin := hin }) :=
    runs_awaited fun es => (exec_accepts_hash (s := { s with hin := hin, inputs := es }) 0 h.idle h.active).1
  refine ⟨_, hload.append hupdate, rfl, h.active, ?_, ?_⟩
  · calc compress s.v (hinBytes hin)
      _ = compress (compressAll hashIv bs) b := by rw [hbytes, h.chaining]
      _ = compressAll hashIv (bs ++ [b]) := (List.foldl_concat ..).symm
  · calc s.hlen + 512
      _ = BitVec.ofNat 64 (512 * bs.length + 512) := by rw [h.length, BitVec.ofNat_add]; rfl
      _ = BitVec.ofNat 64 (512 * (bs ++ [b]).length) := by rw [List.length_append, List.length_singleton, Nat.mul_succ]

/-- The complete blocks of a message, one after the other. -/
theorem Absorbed.runs_hupdates {bs cs : List (List Byte)} {s : State} (h : Absorbed bs s)
    (hblocks : ∀ c ∈ cs, c.length = 64) :
    ∃ t, Runs (scriptEvents (cs.flatMap fun c => [.ldblk (wordsOfBytes c), .command .hupdate, .wait 0])) s t ∧
      Absorbed (bs ++ cs) t := by
  induction cs generalizing bs s with
  | nil => exact ⟨s, .nil s, by rwa [List.append_nil]⟩
  | cons c cs ih =>
    obtain ⟨hc, hcs⟩ := List.forall_mem_cons.mp hblocks
    obtain ⟨t, hfirst, ht⟩ := h.runs_hupdate hc
    obtain ⟨u, hrest, hu⟩ := ih ht hcs
    rw [List.append_assoc] at hu
    refine ⟨u, ?_, hu⟩
    rw [List.flatMap_cons, scriptEvents, List.flatMap_append]
    exact hfirst.append hrest

/-- The end of a hash whose blocks are `bs` and whose tail is `tail`: what HFINAL leaves (R134). -/
structure Finished (bs : List (List Byte)) (tail : List Byte) (s : State) : Prop where
  idle : s.busy = false
  inactive : s.hact = false
  final : s.hfin = true
  length : s.hlen = BitVec.ofNat 64 (512 * bs.length + 8 * tail.length)
  digest : s.v = compressAll (compressAll hashIv bs) (padBlocks tail s.hlen)

/-- A tail written to HIN, with any filler after it, and HFINAL of its length finish the hash (R134, R135). -/
theorem Absorbed.runs_hfinal {bs : List (List Byte)} {tail : List Byte} {s : State} (h : Absorbed bs s)
    (htail : tail.length < 64) (fill : Byte) :
    ∃ t, Runs (scriptEvents [.ldblk (tailWords tail fill), .command (.hfinal (BitVec.ofNat 6 tail.length)), .wait 0]) s t ∧
      Finished bs tail t := by
  let r := BitVec.ofNat 6 tail.length
  have hr : r.toNat = tail.length := Nat.mod_eq_of_lt htail
  obtain ⟨hwhole, hfits⟩ := filled_length htail
  obtain ⟨hin, hload, hprefix⟩ :=
    runs_ldblk (bs := tail ++ List.replicate ((4 - tail.length % 4) % 4) fill) (by simpa using hwhole)
      (by simpa using hfits) h.idle
  have hbytes : tailBytes r.toNat hin = tail := by
    rw [hr]
    exact (List.prefix_iff_eq_take.mp ((List.prefix_append _ _).trans hprefix)).symm
  have hfinal : Runs (scriptEvents [.command (.hfinal r), .wait 0]) { s with hin := hin }
      (awaited ⟨.hfinal, r⟩ { s with hin := hin }) :=
    runs_awaited fun es => (exec_accepts_hash (s := { s with hin := hin, inputs := es }) r h.idle h.active).2
  refine ⟨_, hload.append hfinal, rfl, rfl, rfl, ?_, ?_⟩
  · calc s.hlen + BitVec.ofNat 64 (8 * r.toNat)
      _ = BitVec.ofNat 64 (512 * bs.length + 8 * tail.length) := by rw [h.length, hr, BitVec.ofNat_add]
  · calc compressAll s.v (padBlocks (tailBytes r.toNat hin) (lengthAfterTail s.hlen r.toNat))
      _ = compressAll (compressAll hashIv bs) (padBlocks tail (lengthAfterTail s.hlen r.toNat)) := by
        rw [hbytes, h.chaining]

/-! ### The whole procedure -/

theorem length_of_mem_messageBlocks {m b : List Byte} (h : b ∈ messageBlocks m) : b.length = 64 := by
  obtain ⟨k, hk, rfl⟩ := List.mem_map.mp h
  exact messageBlock_length m k (List.mem_range.mp hk)

/-- A message's bits are those of its complete blocks and of its tail (R131). -/
theorem message_bits (m : List Byte) : 512 * (messageBlocks m).length + 8 * (messageTail m).length = 8 * m.length := by
  rw [messageBlocks_length, messageTail_length]
  omega

theorem runs_hashScript (m : List Byte) (fill : Byte) {s : State} (hb : s.busy = false) :
    ∃ t, Runs (scriptEvents (hashScript m fill)) s t ∧ Finished (messageBlocks m) (messageTail m) t := by
  obtain ⟨t, hstart, ht⟩ := runs_hinit hb
  obtain ⟨u, hblocks, hu⟩ := ht.runs_hupdates (cs := messageBlocks m) fun _ => length_of_mem_messageBlocks
  obtain ⟨w, htail, hw⟩ := hu.runs_hfinal (tail := messageTail m) (by rw [messageTail_length]; omega) fill
  refine ⟨w, ?_, hw⟩
  rw [messageTail_length] at htail
  rw [hashScript, scriptEvents, List.flatMap_append, List.flatMap_append]
  exact (hstart.append hblocks).append htail

/-- Settles O55: the procedure runs to its end, and the length of a message under 2^61 bytes does not wrap. -/
theorem hashScriptComputesTheHash : Obligations.HashScriptComputesTheHash := by
  intro s m fill hb hm
  obtain ⟨t, hruns, ht⟩ := runs_hashScript m fill hb
  have hlen : t.hlen = BitVec.ofNat 64 (8 * m.length) := by rw [ht.length, message_bits]
  have hdigest : t.v = hashMessage m := by rw [ht.digest, hlen]; rfl
  have hbits : t.hlen.toNat = 8 * m.length := by
    rw [hlen, BitVec.toNat_ofNat]
    exact Nat.mod_eq_of_lt (by omega)
  exact ⟨_, hruns.runScript, hdigest, hbits, ht.inactive, ht.final, ht.idle⟩

end Sys2Proof.Machine
end

section
/-! SUPPORT. Proofs about the control commands and the life of a command: NOP and CLEAR (44_control_commands.md R141,
R143), the engine's turn (R144, R181), the end of every flight (R146, R147), and the clock edge at which it comes
(70_reset_and_hazards.md R182). -/

namespace Sys2Proof.Machine

open Sys2Proof

/-! ### NOP and CLEAR -/

/-- Settles O11: the busy check is NOP's only one, and another word with OP = 0 has a reserved field that is not 0. -/
theorem nopChangesNothing : Obligations.NopChangesNothing := by
  intro s
  refine ⟨fun hb => ?_, fun hb => ?_, fun w hb hop hw => ?_⟩
  · exact congrArg _ (immediately_idle _ hb)
  · exact (exec_busy .nop hb).trans (congrArg _ (raiseError_eq_recorded .busy s))
  · have hne : w.toNat ≠ 0 := fun h => hw (BitVec.eq_of_toNat_eq h)
    exact reservedFieldsRaiseBadCmd s w hb (by omega) (by omega)

/-- Settles O12: the values of the reset state, which CLEAR gives by O36, written out. -/
theorem clearResetsAllButCtrl : Obligations.ClearResetsAllButCtrl := resetValuesAreZero.2

/-! ### The engine's turn and the end of a flight -/

/-- When nothing is scheduled the step is the engine's turn (log entry 2). -/
theorem step_of_no_inputs {s : State} (h : s.inputs = []) : step s = .next (engineStep s) := by
  simp only [step, h, idleStep]

theorem engineStep_of_idle {s : State} (hb : s.busy = false) : engineStep s = s := by simp [engineStep, hb]

theorem engineStep_of_busy {s : State} (hb : s.busy = true) : engineStep s = complete s := by simp [engineStep, hb]

/-- Settles O30: scheduled or not, the step is the engine's turn, which BUSY decides. -/
theorem engineStepsExactlyWhenBusy : Obligations.EngineStepsExactlyWhenBusy := by
  intro s
  have scheduled {es : List Event} (hin : s.inputs = .engine :: es) :
      step s = .next (engineStep { s with inputs := es }) := step_of_inputs hin
  refine ⟨fun es hin hb => ?_, fun es hin hb => ?_, fun hin hb => ?_, fun hin hb => ?_⟩
  · exact (scheduled hin).trans (congrArg _ (engineStep_of_idle hb))
  · exact (scheduled hin).trans (congrArg _ (engineStep_of_busy hb))
  · exact (step_of_no_inputs hin).trans (congrArg _ (engineStep_of_idle hb))
  · exact (step_of_no_inputs hin).trans (congrArg _ (engineStep_of_busy hb))

/-- A host transaction schedules nothing. -/
theorem HostEffect.inputs_eq {s t : State} (he : HostEffect s t) : t.inputs = s.inputs := by
  cases he with
  | nothing | read _ | ctrl _ | clear _ | accept _ _ _ _ _ => rfl
  | status w => exact writeStatus_inputs w s
  | store r w _ => exact storeOperand_inputs r w s
  | refuse c => exact raiseError_inputs c s

/-- The engine's turn schedules nothing. -/
theorem engineStep_inputs (s : State) : (engineStep s).inputs = s.inputs := by
  cases hb : s.busy
  · rw [engineStep_of_idle hb]
  · obtain ⟨_, rfl, _, _, _, _, _, _, _, _, _, _, hinputs, _⟩ := completionKeepsOperandsAndErrors s hb
    exact hinputs

/-- A step uses up the first entry of the schedule, whichever agent's it is, and adds none. -/
theorem step_inputs {s t : State} (h : step s = .next t) : t.inputs = s.inputs.tail := by
  obtain ⟨u, hu, heffect⟩ := step_effect s
  obtain rfl : u = t := Host.Outcome.next.inj (hu.symm.trans h)
  rcases heffect with ⟨_, es, n, hin, he⟩ | ⟨es, hin | ⟨hin, rfl⟩, rfl⟩ | ⟨_, es, w, hin, rfl⟩ <;> rw [hin]
  · exact he.inputs_eq
  · exact engineStep_inputs _
  · exact engineStep_inputs _
  · rfl

/-- A run of one step more is the run from where the first step leads. -/
theorem run_succ {s t : State} (h : step s = .next t) (n : Nat) :
    Host.Core.run Sys2Proof.core (n + 1) s = Host.Core.run Sys2Proof.core n t := by
  have hcore : Sys2Proof.core.step s = .next t := h
  simp only [Host.Core.run, hcore]

/-- Settles O37, by induction on the schedule: a step ends the flight or leaves a shorter schedule, and the empty schedule is
the engine's turn. -/
theorem everyCommandInFlightEnds : Obligations.EveryCommandInFlightEnds := by
  intro s hb
  induction hin : s.inputs generalizing s with
  | nil => exact ⟨1, engineStep s, le_rfl, run_succ (step_of_no_inputs hin) 0, engineStep_idle s⟩
  | cons e es ih =>
    obtain ⟨t, ht, _⟩ := step_effect s
    cases htb : t.busy
    · exact ⟨1, t, Nat.le_add_left .., run_succ ht 0, htb⟩
    · have hrest : t.inputs = es := by rw [step_inputs ht, hin, List.tail_cons]
      obtain ⟨n, u, hn, hrun, hu⟩ := ih t htb hrest
      exact ⟨n + 1, u, Nat.succ_le_succ hn, (run_succ ht n).trans hrun, hu⟩

/-! ### The clock edges of a flight -/

/-- A host transaction does not end a flight: only the engine and a reset do (44_control_commands.md R147). -/
theorem HostEffect.busy_of_busy {s t : State} (he : HostEffect s t) (hb : s.busy = true) : t.busy = true := by
  cases he with
  | store _ _ idle | clear idle => simp [hb] at idle
  | nothing | read _ | ctrl _ => exact hb
  | accept _ _ _ _ _ => rfl
  | status w => exact (writeStatus_busy w s).trans hb
  | refuse c => exact (raiseError_busy c s).trans hb

/-- Two sequences of agents' steps, one after the other. -/
theorem takeEvents_append {es : List Event} {s t : State} (h : takeEvents es s = .next t) (fs : List Event) :
    takeEvents (es ++ fs) s = takeEvents fs t := by
  induction es generalizing s with
  | nil =>
    obtain rfl : s = t := Host.Outcome.next.inj h
    rfl
  | cons e es ih =>
    cases he : takeEvent e s with
    | next u =>
      simp only [takeEvents, he] at h
      simp only [List.cons_append, takeEvents, he]
      exact ih h
    | fault r | refused r => simp [takeEvents, he] at h

/-- Whatever the host does in a cycle, a command in flight is still in flight after the transaction. -/
theorem takeEvents_pinTransaction (q : Pins) {s : State} (hb : s.busy = true) :
    ∃ t, takeEvents ((pinTransaction q).toList.map Event.host) s = .next t ∧ t.busy = true := by
  cases pinTransaction q with
  | none => exact ⟨s, rfl, hb⟩
  | some tr =>
    obtain ⟨n, t, ht, he⟩ := transact_effect tr s
    have htake : takeEvent (.host tr) s = .next t := ht
    refine ⟨t, ?_, he.busy_of_busy hb⟩
    simp only [Option.toList_some, List.map_cons, List.map_nil, takeEvents, htake]

/-- The edge that accepts a command sets the cycles to go to the command's latency (R182). -/
theorem nextCountdown_of_acceptance {lat : Pending → State → Nat} {c : TimedState} {t : State} {p : Pending}
    (hidle : c.core.busy = false) (hb : t.busy = true) (hp : t.pend = some p) : nextCountdown lat c t = lat p t := by
  simp only [nextCountdown, hidle, hb, hp]

/-- An edge under a command that stays in flight takes one cycle off. -/
theorem nextCountdown_in_flight (lat : Pending → State → Nat) {c : TimedState} {t : State} (hc : c.core.busy = true)
    (ht : t.busy = true) : nextCountdown lat c t = c.countdown - 1 := by
  simp only [nextCountdown, hc, ht]

/-- An edge that is not the last of a flight leaves the command in flight, with one cycle less to go. -/
theorem clockEdge_in_flight (lat : Pending → State → Nat) {q : Pins} {c : TimedState} (hq : q.rstN = true)
    (hb : c.core.busy = true) (hlong : 1 < c.countdown) :
    ∃ d, clockEdge lat q c = .next d ∧ d.core.busy = true ∧ d.countdown = c.countdown - 1 := by
  obtain ⟨t, ht, htb⟩ := takeEvents_pinTransaction q hb
  have hevents : takeEvents (cycleEvents q c) c.core = .next t := by
    simpa [cycleEvents, completionDue, hq, Nat.not_le.mpr hlong] using ht
  exact ⟨⟨t, nextCountdown lat c t⟩, by simp only [clockEdge, hevents], htb, nextCountdown_in_flight lat hb htb⟩

/-- The last edge of a flight completes the command, after the transaction of its cycle (60_exceptions.md R158). -/
theorem clockEdge_completes (lat : Pending → State → Nat) {q : Pins} {c : TimedState} (hq : q.rstN = true)
    (hb : c.core.busy = true) (hlast : c.countdown ≤ 1) :
    ∃ d, clockEdge lat q c = .next d ∧ d.core.busy = false ∧ d.core.done = true := by
  obtain ⟨t, ht, htb⟩ := takeEvents_pinTransaction q hb
  have hdue : completionDue c = true := by simp [completionDue, hb, hlast]
  have hevents : takeEvents (cycleEvents q c) c.core = .next (engineStep t) := by
    rw [cycleEvents, if_pos hq, if_pos hdue, takeEvents_append ht]; rfl
  obtain ⟨_, rfl, hidle, hdone, _⟩ := completionKeepsOperandsAndErrors t htb
  exact ⟨⟨engineStep t, nextCountdown lat c (engineStep t)⟩, by simp only [clockEdge, hevents], hidle, hdone⟩

/-- After the edge that accepts a command its whole latency is still to go. -/
theorem countdown_of_acceptance {lat : Pending → State → Nat} {q : Pins} {c d : TimedState} {p : Pending}
    (hidle : c.core.busy = false) (hedge : clockEdge lat q c = .next d) (hp : d.core.pend = some p)
    (hb : d.core.busy = true) : d.countdown = lat p d.core := by
  unfold clockEdge at hedge
  split at hedge
  · obtain rfl := Host.Outcome.next.inj hedge
    exact nextCountdown_of_acceptance hidle hb hp
  · cases hedge
  · cases hedge

theorem clockEdges_cons {lat : Pending → State → Nat} {q : Pins} {c d : TimedState} (h : clockEdge lat q c = .next d)
    (pins : List Pins) : clockEdges lat (q :: pins) c = clockEdges lat pins d := by
  simp only [clockEdges, h]

/-- Fewer edges than the cycles to go leave the command in flight. -/
theorem clockEdges_in_flight (lat : Pending → State → Nat) {pins : List Pins} {c : TimedState}
    (hrst : ∀ q ∈ pins, q.rstN = true) (hb : c.core.busy = true) (hlen : pins.length < c.countdown) :
    ∃ e, clockEdges lat pins c = .next e ∧ e.core.busy = true := by
  induction pins generalizing c with
  | nil => exact ⟨c, rfl, hb⟩
  | cons q rest ih =>
    obtain ⟨hq, hrest⟩ := List.forall_mem_cons.mp hrst
    rw [List.length_cons] at hlen
    obtain ⟨d, hd, hdb, hcount⟩ := clockEdge_in_flight lat hq hb (by omega)
    rw [clockEdges_cons hd]
    exact ih hrest hdb (by omega)

/-- As many edges as the cycles to go complete the command. -/
theorem clockEdges_complete (lat : Pending → State → Nat) {pins : List Pins} {c : TimedState}
    (hrst : ∀ q ∈ pins, q.rstN = true) (hb : c.core.busy = true) (hpos : 1 ≤ c.countdown)
    (hlen : pins.length = c.countdown) :
    ∃ e, clockEdges lat pins c = .next e ∧ e.core.busy = false ∧ e.core.done = true := by
  induction pins generalizing c with
  | nil => simp only [List.length_nil] at hlen; omega
  | cons q rest ih =>
    obtain ⟨hq, hrest⟩ := List.forall_mem_cons.mp hrst
    rw [List.length_cons] at hlen
    by_cases hlast : c.countdown ≤ 1
    · obtain ⟨d, hd, hdone⟩ := clockEdge_completes lat hq hb hlast
      obtain rfl : rest = [] := List.eq_nil_of_length_eq_zero (by omega)
      exact ⟨d, clockEdges_cons hd [], hdone⟩
    · obtain ⟨d, hd, hdb, hcount⟩ := clockEdge_in_flight lat hq hb (by omega)
      rw [clockEdges_cons hd]
      exact ih hrest hdb (by omega) (by omega)

/-- Settles O58: the cycles to go are the latency at the accepting edge, and each edge takes one off. -/
theorem completionComesAtItsLatency : Obligations.CompletionComesAtItsLatency := by
  intro lat pin c d p pins hlat hidle hedge hp hb hrst
  have hcount : d.countdown = lat p d.core := countdown_of_acceptance hidle hedge hp hb
  rw [← hcount]
  exact ⟨clockEdges_in_flight lat hrst hb, clockEdges_complete lat hrst hb (hcount ▸ hlat p d.core)⟩

end Sys2Proof.Machine
end

section
/-! SUPPORT. Proofs about error handling: the error record (60_exceptions.md R151), the core that never stops (R149), and the
order of a transaction and the completion that falls in its cycle (R158, 70_reset_and_hazards.md R179). -/

namespace Sys2Proof.Machine

open Sys2Proof

/-! ### The error record, and the outcome of a step -/

/-- Settles O21: ERR decides which branch of `raiseError` is taken, and the codes are those of the table of R150. -/
theorem raiseErrorKeepsTheFirstCode : Obligations.RaiseErrorKeepsTheFirstCode := by
  intro c s
  refine ⟨fun herr => ?_, fun herr => ?_, rfl, rfl, rfl, rfl, rfl⟩
  · rw [raiseError, if_pos herr]
  · rw [raiseError, herr, if_neg Bool.false_ne_true]

/-- Settles O34: a host transaction, the engine's turn and a reset each leave a next state. -/
theorem everyStepAnswersNext : Obligations.EveryStepAnswersNext := by
  intro s
  obtain ⟨t, ht, _⟩ := step_effect s
  exact ⟨t, ht⟩

/-! ### The cycle of a completion -/

/-- A write to STATUS acts whether the core is busy or idle (20_memory.md R64). -/
theorem memWrite_status (v : Word) (s : State) : memWrite 0x00C v s = .next (writeStatus v s) := by
  rw [memWrite, show regAt 0x00C = .status from regAt_offset .status]; rfl

/-- A write on the bus pins is the cycle's transaction (70_reset_and_hazards.md R169). -/
theorem takeEvents_pinWrite {q : Pins} {off : BitVec 12} {s t : State} (hsel : q.busSel = true)
    (hwr : q.busWrite = true) (hoff : pinOffset q = off) (hwrite : memWrite off q.busWdata s = .next t) :
    takeEvents ((pinTransaction q).toList.map Event.host) s = .next t := by
  have htake : takeEvent (.host (.write off q.busWdata)) s = .next t := hwrite
  rw [pinTransaction, if_pos hsel, if_pos hwr, hoff]
  simp only [Option.toList_some, List.map_cons, List.map_nil, takeEvents, htake]

/-- When a completion is due, the edge completes the command from the state the cycle's transaction leaves (R158). -/
theorem clockEdge_completes_after_transaction (lat : Pending → State → Nat) {q : Pins} {c : TimedState} {t : State}
    (hq : q.rstN = true) (hb : c.core.busy = true) (hlast : c.countdown ≤ 1)
    (ht : takeEvents ((pinTransaction q).toList.map Event.host) c.core = .next t) :
    ∃ d, clockEdge lat q c = .next d ∧ d.core = engineStep t := by
  have hdue : completionDue c = true := by simp [completionDue, hb, hlast]
  have hevents : takeEvents (cycleEvents q c) c.core = .next (engineStep t) := by
    rw [cycleEvents, if_pos hq, if_pos hdue, takeEvents_append ht]; rfl
  exact ⟨⟨engineStep t, nextCountdown lat c (engineStep t)⟩, by simp only [clockEdge, hevents], rfl⟩

/-- Settles O57: the write to STATUS clears what it clears and the write to CMD is refused, both leaving the command in
flight; the completion that follows sets DONE and keeps the error record. -/
theorem sameCycleTransactionComesFirst : Obligations.SameCycleTransactionComesFirst := by
  intro lat c v hb hlast
  constructor
  · have hbusy : (writeStatus v c.core).busy = true := (writeStatus_busy v c.core).trans hb
    obtain ⟨d, hedge, hcore⟩ := clockEdge_completes_after_transaction lat (q := ⟨true, true, true, 0x003, v⟩) rfl hb hlast
      (takeEvents_pinWrite rfl rfl (by simp [pinOffset]) (memWrite_status v c.core))
    obtain ⟨_, rfl, hidle, hdone, _⟩ := completionKeepsOperandsAndErrors _ hbusy
    exact ⟨d, hedge, hcore, hcore ▸ hdone, hcore ▸ hidle⟩
  · have hbusy : (recorded 1 c.core).busy = true := hb
    obtain ⟨d, hedge, hcore⟩ := clockEdge_completes_after_transaction lat (q := ⟨true, true, true, 0x004, v⟩) rfl hb hlast
      (takeEvents_pinWrite rfl rfl (by simp [pinOffset]) (memWrite_cmd_busy v hb))
    obtain ⟨_, rfl, hidle, hdone, _, herr, hcode, _⟩ := completionKeepsOperandsAndErrors _ hbusy
    exact ⟨d, hedge, hcore, hcore ▸ hdone, hcore ▸ hidle, hcore ▸ herr, hcore ▸ hcode⟩

end Sys2Proof.Machine
end

section
/-! SUPPORT. Proofs about a command that meets a busy core. -/

namespace Sys2Proof.Machine

open Sys2Proof

/-- Settles O10: the CMD write refuses before it decodes, and each command's first check refuses it when it is executed by
itself; both leave the error record of R151 with code 1. -/
theorem busyRefusesEveryCommand : Obligations.BusyRefusesEveryCommand := by
  intro s hb
  refine ⟨fun w => memWrite_cmd_busy w hb, fun i => ?_⟩
  calc exec i s = .next (raiseError .busy s) := exec_busy i hb
    _ = .next (recorded 1 s) := congrArg _ (raiseError_eq_recorded .busy s)

end Sys2Proof.Machine
end
